-- ==== Sys2Proof/Config.lean ====
section
/-! DEFINITION. What the format fixes (00_scope.md R4) and the one parameter the spec leaves open (D23). -/

namespace Sys2Proof.Config

/-- `BIAS = 2` (00_scope.md R4). -/
def bias : Nat := 2

/-- `EXP_MAX = 7`, the largest exponent field value (00_scope.md R4). -/
def expMax : Nat := 7

/-- `SIG_MAX = 15`, the largest significand field value (00_scope.md R4). -/
def sigMax : Nat := 15

/-- `T_PD`, the time from the last input change to valid `y`, `st` (70_reset_and_hazards.md R108): an OPEN
parameter (92_eei_decisions.md D23). "no rule's result depends on it", so no meaning below uses it; the host's
sampling rule in Safety.lean does. -/
opaque tPD : Nat

end Sys2Proof.Config
end

