-- ==== Sys2Proof/Word.lean ====
section
/-! DEFINITION. The bit vectors of the block: port words, operation codes and Values. -/

namespace Sys2Proof

/-- What the ports `a`, `b` and `y` carry (30_encoding.md R31). -/
abbrev Word := BitVec 32

/-- What the port `op` carries (30_encoding.md R31, R34). -/
abbrev OpCode := BitVec 5

/-- The 8-bit packed datum (10_state.md R12); all 256 bytes are valid (R15 b). -/
abbrev Value := BitVec 8

end Sys2Proof
end

