-- ==== Sys2Proof/Syntax.lean ====
section
/-! DEFINITION. The request as the ports carry it, and one constructor of `Instr` per row of
spec/opcode_table.json with the operand fields its format names (30_encoding.md R32, R34). -/

namespace Sys2Proof

/-- One assignment of values to the input ports (30_encoding.md R30, R31). -/
structure Request where
  op : OpCode
  a  : Word
  b  : Word
deriving DecidableEq, Repr

/-- A request with its operands taken from the ports. The bits a format does not name (R36) are not part of it. -/
inductive Instr where
  /-- `op = 0`, format N, R48. -/
  | zero
  /-- `op = 1`, format N, R49. -/
  | one
  /-- `op = 2`, format T: raw sign, raw exponent, raw significand, R40. -/
  | pack (s e m : BitVec 8)
  /-- `op = 3`, format V, R41. -/
  | sbit (v : Value)
  /-- `op = 4`, format V, R42. -/
  | expf (v : Value)
  /-- `op = 5`, format V, R43. -/
  | sigf (v : Value)
  /-- `op = 6`, format V, R44. -/
  | isneg (v : Value)
  /-- `op = 7`, format V, R45. -/
  | isnneg (v : Value)
  /-- `op = 8`, format V, R46. -/
  | sgn (v : Value)
  /-- `op = 9`, format VV, R47. -/
  | eq (v w : Value)
  /-- `op = 10`, format EM: raw exponent, raw significand, R57. -/
  | norm (e : BitVec 8) (m : BitVec 24)
  /-- `op = 11`, format V, R64. -/
  | neg (v : Value)
  /-- `op = 12`, format VV, R60. -/
  | add (v w : Value)
  /-- `op = 13`, format VV: first operand minus second, R65. -/
  | sub (v w : Value)
  /-- `op = 14`, format VV, R70. -/
  | mul (v w : Value)
  /-- `op = 15`, format V, R78. -/
  | tof32 (v : Value)
  /-- `op = 16`, format F: a binary32 pattern, R80. -/
  | xfromf32 (f : Word)
  /-- `op = 17`, format F: a binary32 pattern, R83. -/
  | afromf32 (f : Word)
  /-- A reserved code, 18 or 19, R35; the code itself is kept. -/
  | reserved1819 (op : OpCode)
  /-- A reserved code, 20 to 23, R35; the code itself is kept. -/
  | reserved2023 (op : OpCode)
  /-- A reserved code, 24 to 31, R35; the code itself is kept. -/
  | reserved2431 (op : OpCode)
deriving DecidableEq, Repr

end Sys2Proof
end

