-- ==== Sys2Proof/WellFormed.lean ====
section
/-! DEFINITION. Which terms of `Instr` are requests: every operand field has its width by type, so the one
thing to check is that a reserved row's code is one of its own (30_encoding.md R35). -/

namespace Sys2Proof

/-- `op` is one of the codes `lo` to `hi`. -/
def OpCode.inRange (lo hi : Nat) (op : OpCode) : Bool :=
  decide (lo ≤ op.toNat) && decide (op.toNat ≤ hi)

/-- The check: the three reserved rows hold the codes 18 to 19, 20 to 23 and 24 to 31 (R35). -/
def Instr.wellFormed : Instr → Bool
  | .zero => true
  | .one => true
  | .pack _ _ _ => true
  | .sbit _ => true
  | .expf _ => true
  | .sigf _ => true
  | .isneg _ => true
  | .isnneg _ => true
  | .sgn _ => true
  | .eq _ _ => true
  | .norm _ _ => true
  | .neg _ => true
  | .add _ _ => true
  | .sub _ _ => true
  | .mul _ _ => true
  | .tof32 _ => true
  | .xfromf32 _ => true
  | .afromf32 _ => true
  | .reserved1819 op => OpCode.inRange 18 19 op
  | .reserved2023 op => OpCode.inRange 20 23 op
  | .reserved2431 op => OpCode.inRange 24 31 op

end Sys2Proof
end

