-- ==== Sys2Proof/Decode.lean ====
section
/-! DEFINITION. From the ports to `Instr` (30_encoding.md R30 to R36) and back. Every one of the 32 codes has a
row of the table (R35: "the table's rows partition all 32 values of `op`"), so decoding a request never rejects;
what is rejected by name is a number that is no 69-bit request. -/

namespace Sys2Proof

/-- `zext_32` of 00_scope.md R7: the field at the low end of a port word, zeros above. -/
def zext {n : Nat} (x : BitVec n) : Word := x.setWidth 32

/-! ### The slices of R32 -/

/-- `a[7:0]`: the first Value of formats V and VV, the raw significand of format T. -/
def Request.aLow (r : Request) : BitVec 8 := r.a.extractLsb' 0 8

/-- `b[7:0]`: the second Value of format VV. -/
def Request.bLow (r : Request) : BitVec 8 := r.b.extractLsb' 0 8

/-- `a[23:16]`: the raw sign of format T. -/
def Request.rawSign (r : Request) : BitVec 8 := r.a.extractLsb' 16 8

/-- `a[15:8]`: the raw exponent of format T. -/
def Request.rawExp (r : Request) : BitVec 8 := r.a.extractLsb' 8 8

/-- `a[31:24]`: the raw exponent of format EM. -/
def Request.normExp (r : Request) : BitVec 8 := r.a.extractLsb' 24 8

/-- `a[23:0]`: the raw significand of format EM. -/
def Request.normSig (r : Request) : BitVec 24 := r.a.extractLsb' 0 24

/-! ### The bits a format names (R32, R36) -/

/-- The bits of `a` that a code's format names: none for N and the reserved codes, `a[7:0]` for V and VV,
`a[23:0]` for T, all for EM and F. -/
def namedA (op : OpCode) : Word :=
  match op.toNat with
  | 2 => 0x00FFFFFF
  | 3 | 4 | 5 | 6 | 7 | 8 | 9 => 0x000000FF
  | 10 => 0xFFFFFFFF
  | 11 | 12 | 13 | 14 | 15 => 0x000000FF
  | 16 | 17 => 0xFFFFFFFF
  | _ => 0

/-- The bits of `b` that a code's format names: `b[7:0]` for VV, none for the others. -/
def namedB (op : OpCode) : Word :=
  match op.toNat with
  | 9 | 12 | 13 | 14 => 0x000000FF
  | _ => 0

/-- The request with the bits its format does not name set to 0. -/
def Request.clean (r : Request) : Request :=
  { op := r.op, a := r.a &&& namedA r.op, b := r.b &&& namedB r.op }

/-! ### Decoding -/

/-- A reserved code's row (R35). -/
def decodeReserved (op : OpCode) : Instr :=
  if op.toNat ≤ 19 then .reserved1819 op
  else if op.toNat ≤ 23 then .reserved2023 op
  else .reserved2431 op

/-- The operation map of R34 with the operand placement of R32. -/
def decode (r : Request) : Instr :=
  match r.op.toNat with
  | 0 => .zero
  | 1 => .one
  | 2 => .pack r.rawSign r.rawExp r.aLow
  | 3 => .sbit r.aLow
  | 4 => .expf r.aLow
  | 5 => .sigf r.aLow
  | 6 => .isneg r.aLow
  | 7 => .isnneg r.aLow
  | 8 => .sgn r.aLow
  | 9 => .eq r.aLow r.bLow
  | 10 => .norm r.normExp r.normSig
  | 11 => .neg r.aLow
  | 12 => .add r.aLow r.bLow
  | 13 => .sub r.aLow r.bLow
  | 14 => .mul r.aLow r.bLow
  | 15 => .tof32 r.aLow
  | 16 => .xfromf32 r.a
  | 17 => .afromf32 r.a
  | _ => decodeReserved r.op

/-- Why a number is no request. -/
inductive DecodeError where
  /-- The number has a bit above bit 68: a request is 69 bits, `REQ[68:0]` (R30). -/
  | widerThanARequest
deriving DecidableEq, Repr

/-- `op = REQ[68:64]`, `b = REQ[63:32]`, `a = REQ[31:0]` (R30). -/
def requestOfWord (w : Nat) : Request :=
  { op := BitVec.ofNat 5 (w >>> 64), a := BitVec.ofNat 32 w, b := BitVec.ofNat 32 (w >>> 32) }

/-- The instruction a number stands for, or why it is none. -/
def decodeWord (w : Nat) : Except DecodeError Instr :=
  if w < 2 ^ 69 then .ok (decode (requestOfWord w)) else .error .widerThanARequest

/-- The instruction the decoder reads from a table word of `nbits` bits (the bits above them 0). -/
def decodeTableWord (nbits w : Nat) : Option Instr :=
  match decodeWord (w % 2 ^ nbits) with
  | .ok i => some i
  | .error _ => none

/-! ### Encoding -/

/-- The code of an instruction's row (R34); a reserved row's is the one it holds (R35). -/
def Instr.opCode : Instr → OpCode
  | .zero => 0
  | .one => 1
  | .pack _ _ _ => 2
  | .sbit _ => 3
  | .expf _ => 4
  | .sigf _ => 5
  | .isneg _ => 6
  | .isnneg _ => 7
  | .sgn _ => 8
  | .eq _ _ => 9
  | .norm _ _ => 10
  | .neg _ => 11
  | .add _ _ => 12
  | .sub _ _ => 13
  | .mul _ _ => 14
  | .tof32 _ => 15
  | .xfromf32 _ => 16
  | .afromf32 _ => 17
  | .reserved1819 op => op
  | .reserved2023 op => op
  | .reserved2431 op => op

/-- The port `a` an instruction's operands make (R32), ignored bits 0. -/
def Instr.portA : Instr → Word
  | .zero => 0
  | .one => 0
  | .pack s e m => zext (s ++ e ++ m)
  | .sbit v => zext v
  | .expf v => zext v
  | .sigf v => zext v
  | .isneg v => zext v
  | .isnneg v => zext v
  | .sgn v => zext v
  | .eq v _ => zext v
  | .norm e m => e ++ m
  | .neg v => zext v
  | .add v _ => zext v
  | .sub v _ => zext v
  | .mul v _ => zext v
  | .tof32 v => zext v
  | .xfromf32 f => f
  | .afromf32 f => f
  | .reserved1819 _ => 0
  | .reserved2023 _ => 0
  | .reserved2431 _ => 0

/-- The port `b` an instruction's operands make (R32), ignored bits 0. -/
def Instr.portB : Instr → Word
  | .zero => 0
  | .one => 0
  | .pack _ _ _ => 0
  | .sbit _ => 0
  | .expf _ => 0
  | .sigf _ => 0
  | .isneg _ => 0
  | .isnneg _ => 0
  | .sgn _ => 0
  | .eq _ w => zext w
  | .norm _ _ => 0
  | .neg _ => 0
  | .add _ w => zext w
  | .sub _ w => zext w
  | .mul _ w => zext w
  | .tof32 _ => 0
  | .xfromf32 _ => 0
  | .afromf32 _ => 0
  | .reserved1819 _ => 0
  | .reserved2023 _ => 0
  | .reserved2431 _ => 0

/-- The request of an instruction. -/
def encode (i : Instr) : Request := { op := i.opCode, a := i.portA, b := i.portB }

/-- A request as the one number `REQ[68:0] = {op, b, a}` (R30). -/
def Request.word (r : Request) : Nat := (r.op ++ r.b ++ r.a).toNat

/-- The 69-bit word of an instruction. -/
def encodeWord (i : Instr) : Nat := (encode i).word

end Sys2Proof
end

