-- ==== Sys2Proof/Machine/State.lean ====
section
/-! DEFINITION. The state: the five ports of 30_encoding.md R31 and nothing else, since "The hardware holds no
architectural state" (10_state.md R10). The faults (none) and the refusals. -/

namespace Sys2Proof.Machine

/-- The four status names of 60_exceptions.md R90. Their codes on `st` are in Flags.lean. -/
inductive Status where
  /-- "a result, saturated or not". -/
  | ok
  /-- "Representation-underflow", raised by XFROMF32 only (R91). -/
  | absent
  /-- A reserved operation code (R92). -/
  | illegal
  /-- "Internal invariant violation": named, never driven (R93). -/
  | fatal
deriving DecidableEq, Repr

/-- One settled assignment of the output ports (30_encoding.md R30, R31). -/
structure Answer where
  y  : Word
  st : Status
deriving DecidableEq, Repr

/-- The ports. `op`, `a`, `b` are what the host drives. `out` is what the outputs have settled to, `none` while
an input change has not yet settled: "a model gives such a sample no meaning" (70_reset_and_hazards.md R108).
DESIGN CHOICE, safe: see notes/assumptions/2.md. -/
structure State where
  op  : OpCode
  a   : Word
  b   : Word
  out : Option Answer
deriving DecidableEq, Repr

/-- No operation of this hardware stops it, so there is no fault: non-OK statuses are answers (R97), and the
alignment invariant whose violation would be FATAL always holds (42_adder.md R63). Safe: nothing is lost by it. -/
inductive Fault
deriving DecidableEq, Repr

/-- Why a request is refused. -/
inductive Refusal where
  /-- Raised by an arm of `exec` whose instruction has no meaning yet (safe); no arm of this model raises it. -/
  | notModelled (mnemonic : String)
deriving DecidableEq, Repr

/-- After power-up, with the inputs at the values of notes/assumptions/1.md (DESIGN CHOICE, unsafe: R106 does
not say what the inputs hold); the outputs are then ZERO's (R106). -/
def State.reset : State :=
  { op := 0, a := 0, b := 0, out := some { y := 0, st := .ok } }

end Sys2Proof.Machine
end

