-- ==== Sys2Proof/Machine/Flags.lean ====
section
/-! DEFINITION. The hardware has no flags (10_state.md R10, R19; 60_exceptions.md R94). What stands beside a
result is the request's own status: its code on `st`, and what a host may read of an answer. -/

namespace Sys2Proof.Machine

/-- The code on `st[1:0]` (60_exceptions.md R90). -/
def Status.code : Status → BitVec 2
  | .ok => 0
  | .absent => 1
  | .illegal => 2
  | .fatal => 3

/-- The answer of an operation that has a result: status OK (R90). -/
def Answer.done (y : Word) : Answer := { y := y, st := .ok }

/-- `raise <Status>`: "`st <-` that code, `y <- 0`" and nothing else (60_exceptions.md R90; 00_scope.md R7). -/
def Answer.raised (c : Status) : Answer := { y := 0, st := c }

/-- What an answer MEANS: the result if the status is OK, and nothing otherwise. The 0 that `y` carries then is
no result: R91 and R92 ask a model for an option type here (93_implementation_defined.md U7, W1, W2). -/
def Answer.result (r : Answer) : Option Word :=
  match r.st with
  | .ok => some r.y
  | .absent => none
  | .illegal => none
  | .fatal => none

end Sys2Proof.Machine
end

