-- ==== Sys2Proof/Machine/Ops.lean ====
section
/-! DEFINITION. The named operations over the ports: reading the request, presenting one, answering it. There is
no register file and no memory to read or write (10_state.md R10, 20_memory.md R20). -/

namespace Sys2Proof.Machine

/-- The request now on the input ports; the block's whole "fetch". -/
def State.request (s : State) : Request := { op := s.op, a := s.a, b := s.b }

/-- The host drives the input ports. The outputs have not settled yet (70_reset_and_hazards.md R108). -/
def State.present (s : State) (r : Request) : State :=
  { s with op := r.op, a := r.a, b := r.b, out := none }

/-- The outputs settle to an answer. The inputs are the host's and stay: "the operands are never mutated"
(00_scope.md R9). -/
def State.answer (s : State) (r : Answer) : State := { s with out := some r }

/-- The request completes with a result on `y` and `st = OK`. -/
def State.finish (s : State) (y : Word) : State := s.answer (Answer.done y)

/-- A non-OK status. This is all that stands for taking an exception on this hardware: "saves nothing, changes
no mode, masks nothing, uses no stack or vector table and sends control nowhere" (60_exceptions.md R97), and
there is no return from it (R98). -/
def State.raise (s : State) (c : Status) : State := s.answer (Answer.raised c)

end Sys2Proof.Machine
end

