-- ==== Sys2Proof/Machine/Operands.lean ====
section
/-! DEFINITION. Result placement, every form of 30_encoding.md R33. The operand forms of R32 are slices of the
ports and stand in Decode.lean. -/

namespace Sys2Proof.Machine

/-- A Value result: `y[7:0]`. -/
def placeValue (v : Value) : Word := zext v

/-- A one-bit result: `y[0]`. -/
def placeBit (x : Bool) : Word := zext (BitVec.ofBool x)

/-- A 3-bit field: `y[2:0]`. -/
def placeExp (e : BitVec 3) : Word := zext e

/-- A 4-bit field: `y[3:0]`. -/
def placeSig (m : BitVec 4) : Word := zext m

/-- The signed digit: sign-extended to 8 bits on `y[7:0]`, zeros above (R33, R46). -/
def placeDigit (d : Int) : Word := zext (BitVec.ofInt 8 d)

end Sys2Proof.Machine
end

