-- ==== Sys2Proof/Machine/Codec.lean ====
section
/-! DEFINITION. The bit-layout codec (40_codec.md): pack, the accessors, the sign predicates, the signed digit,
equality, the constants. -/

namespace Sys2Proof.Machine

/-! ### The functions -/

/-- `pack(sign, exponent, significand)`, the masks and shifts of R40. -/
def pack (s e m : Nat) : Value :=
  BitVec.ofNat 8 (((s &&& 1) <<< 7) ||| ((e &&& 7) <<< 4) ||| (m &&& 15))

/-- `sign_bit(v) = v[7]` (R41). -/
def signBit (v : Value) : BitVec 1 := v.extractLsb' 7 1

/-- `exponent_field(v) = v[6:4]` (R42). -/
def exponentField (v : Value) : BitVec 3 := v.extractLsb' 4 3

/-- `significand_field(v) = v[3:0]` (R43). -/
def significandField (v : Value) : BitVec 4 := v.extractLsb' 0 4

/-- `is_negative(v)`: the sign bit and nothing else (R44). -/
def isNegative (v : Value) : Bool := signBit v == 1

/-- `is_non_negative(v)` (R45). -/
def isNonNegative (v : Value) : Bool := signBit v == 0

/-- The zero test of `sign()`: `v[6:0] = 0`, the bytes 0x00 and 0x80 (R46, decision D16). -/
def sgnIsZero (v : Value) : Bool := v.extractLsb' 0 7 == 0

/-- `sign(v)`: −1, 0 or +1 (R46). -/
def sgnDigit (v : Value) : Int :=
  if sgnIsZero v then 0 else if isNegative v then -1 else 1

/-- Equality is bit-pattern equality (R47). -/
def valueEq (v w : Value) : Bool := v == w

/-- The constant ZERO (R48; 10_state.md R18). -/
def zeroValue : Value := pack 0 0 0

/-- The constant ONE: significand 1 at exponent BIAS (R49; 10_state.md R18). -/
def oneValue : Value := pack 0 Config.bias 1

/-! ### The meanings -/

/-- ZERO (R48). -/
def execZero (s : State) : Host.Outcome State Fault Refusal :=
  .next (s.finish (placeValue zeroValue))

/-- ONE (R49). -/
def execOne (s : State) : Host.Outcome State Fault Refusal :=
  .next (s.finish (placeValue oneValue))

/-- PACK (R40): no normalization, no refusal. -/
def execPack (rs re rm : BitVec 8) (s : State) : Host.Outcome State Fault Refusal :=
  .next (s.finish (placeValue (pack rs.toNat re.toNat rm.toNat)))

/-- SBIT (R41). -/
def execSbit (v : Value) (s : State) : Host.Outcome State Fault Refusal :=
  .next (s.finish (zext (signBit v)))

/-- EXPF (R42). -/
def execExpf (v : Value) (s : State) : Host.Outcome State Fault Refusal :=
  .next (s.finish (placeExp (exponentField v)))

/-- SIGF (R43). -/
def execSigf (v : Value) (s : State) : Host.Outcome State Fault Refusal :=
  .next (s.finish (placeSig (significandField v)))

/-- ISNEG (R44). -/
def execIsneg (v : Value) (s : State) : Host.Outcome State Fault Refusal :=
  .next (s.finish (placeBit (isNegative v)))

/-- ISNNEG (R45). -/
def execIsnneg (v : Value) (s : State) : Host.Outcome State Fault Refusal :=
  .next (s.finish (placeBit (isNonNegative v)))

/-- SGN (R46). -/
def execSgn (v : Value) (s : State) : Host.Outcome State Fault Refusal :=
  .next (s.finish (placeDigit (sgnDigit v)))

/-- EQ (R47). -/
def execEq (v w : Value) (s : State) : Host.Outcome State Fault Refusal :=
  .next (s.finish (placeBit (valueEq v w)))

end Sys2Proof.Machine
end

