-- ==== Sys2Proof/Machine/Normalizer.lean ====
section
/-! DEFINITION. The normalizer (41_normalizer.md). -/

namespace Sys2Proof.Machine

/-- The saturated pair, exponent 7 and significand 0 (R55; 10_state.md R16, decision D8). -/
def sentinelPair : Nat × Nat := (Config.expMax, 0)

/-- The loop of R55, by recursion on the exponent, which each halving DECREMENTS (90_conflicts.md C1). At
exponent 0 a significand above 15 is "forced early" to the sentinel. -/
def normalizeLoop : Nat → Nat → Nat × Nat
  | 0, m => if m > Config.sigMax then sentinelPair else (0, m)
  | e + 1, m => if m > Config.sigMax then normalizeLoop e (m >>> 1) else (e + 1, m)

/-- `normalize(e, m)` on natural numbers (R55); the exponent's test comes first and looks at nothing else. -/
def normalizePair (e m : Nat) : Nat × Nat :=
  if e ≥ Config.expMax then sentinelPair else normalizeLoop e m

/-- "calls the normalizer exactly once before repacking via the codec" (00_scope.md R2). -/
def normalizePack (s e m : Nat) : Value :=
  let (e', m') := normalizePair e m
  pack s e' m'

/-- NORM (R57): the pair packed as a Value of sign 0, always OK. -/
def execNorm (e : BitVec 8) (m : BitVec 24) (s : State) : Host.Outcome State Fault Refusal :=
  .next (s.finish (placeValue (normalizePack 0 e.toNat m.toNat)))

end Sys2Proof.Machine
end

