-- ==== Sys2Proof/Machine/Adder.lean ====
section
/-! DEFINITION. The adder (42_adder.md): alignment, the four sign arms, negate, subtract. -/

namespace Sys2Proof.Machine

/-- `n` passes of an alignment loop of R61: the significand doubled, the exponent INCREMENTED
(90_conflicts.md C2). -/
def doubleUp : Nat → Nat × Nat → Nat × Nat
  | 0, p => p
  | n + 1, (e, x) => doubleUp n (e + 1, x <<< 1)

/-- Both operands after alignment, with the exponent each one reached. -/
structure Aligned where
  ea : Nat
  xa : Nat
  eb : Nat
  xb : Nat
deriving DecidableEq, Repr

/-- `align` (R61): the first loop runs while `ea < eb`, the second while `eb < ea`. That both exponents come out
equal is R63, a theorem and no test. -/
def align (ea ma eb mb : Nat) : Aligned :=
  let (ea', xa) := doubleUp (eb - ea) (ea, ma)
  let (eb', xb) := doubleUp (ea' - eb) (eb, mb)
  { ea := ea', xa := xa, eb := eb', xb := xb }

/-- An opposite-sign arm of `combine` (R62): `na` is the first operand's sign. A tie is the byte 0x00 whatever
the exponent; otherwise the larger ALIGNED significand gives the sign (decision D11). -/
def cancel (na : Nat) (e xa xb : Nat) : Value :=
  if xa = xb then zeroValue
  else if xa > xb then normalizePack na e (xa - xb)
  else normalizePack (1 - na) e (xb - xa)

/-- `combine` (R62), its four sign arms. -/
def combine (na nb : Bool) (e xa xb : Nat) : Value :=
  match na, nb with
  | false, false => normalizePack 0 e (xa + xb)
  | true, true => normalizePack 1 e (xa + xb)
  | false, true => cancel 0 e xa xb
  | true, false => cancel 1 e xa xb

/-- `add(a, b)` (R60). -/
def addValue (v w : Value) : Value :=
  let p := align (exponentField v).toNat (significandField v).toNat
    (exponentField w).toNat (significandField w).toNat
  combine (isNegative v) (isNegative w) p.ea p.xa p.xb

/-- `negate(v) = v ^ 0x80` (R64). -/
def negateValue (v : Value) : Value := v ^^^ 0x80

/-- `subtract(a, b) = add(a, negate(b))` (R65). -/
def subtractValue (v w : Value) : Value := addValue v (negateValue w)

/-- NEG (R64). -/
def execNeg (v : Value) (s : State) : Host.Outcome State Fault Refusal :=
  .next (s.finish (placeValue (negateValue v)))

/-- ADD (R60): always OK, saturation included (60_exceptions.md R94). -/
def execAdd (v w : Value) (s : State) : Host.Outcome State Fault Refusal :=
  .next (s.finish (placeValue (addValue v w)))

/-- SUB (R65). -/
def execSub (v w : Value) (s : State) : Host.Outcome State Fault Refusal :=
  .next (s.finish (placeValue (subtractValue v w)))

end Sys2Proof.Machine
end

