-- ==== Sys2Proof/Machine/Converter.lean ====
section
/-! DEFINITION. The converter (44_converter.md): binary32 taken apart and put together; no binary32
arithmetic. -/

namespace Sys2Proof.Machine

/-- `bitlen` of 00_scope.md R6. -/
def bitlen (x : Nat) : Nat := if x = 0 then 0 else Nat.log2 x + 1

/-! ### binary32 fields (R75) -/

/-- `f[31]`, the sign bit S. -/
def f32Sign (f : Word) : BitVec 1 := f.extractLsb' 31 1

/-- `f[30:23]`, the biased exponent field X. -/
def f32Exp (f : Word) : BitVec 8 := f.extractLsb' 23 8

/-- `f[22:0]`, the fraction field F. -/
def f32Frac (f : Word) : BitVec 23 := f.extractLsb' 0 23

/-- The pattern {S, X, F}. -/
def f32Pattern (s : BitVec 1) (x : BitVec 8) (fr : BitVec 23) : Word := s ++ x ++ fr

/-! ### To binary32 -/

/-- `to_f32(v)` (R78): significand 0 gives a signed zero whatever the exponent, the sentinel included
(90_conflicts.md C5). -/
def toF32 (v : Value) : Word :=
  let e := (exponentField v).toNat
  let m := (significandField v).toNat
  if m = 0 then f32Pattern (signBit v) 0 0
  else
    let p := bitlen m - 1
    f32Pattern (signBit v) (BitVec.ofNat 8 (125 + e + p)) (BitVec.ofNat 23 ((m - 2 ^ p) <<< (23 - p)))

/-! ### From binary32 -/

/-- `decode(f)` (R76): significand and exponent; the third result, the sign bit, is `f32Sign`. X = 255 is
decoded like a normal exponent (decision D14). -/
def f32Decode (f : Word) : Nat × Int :=
  if (f32Exp f).toNat = 0 then ((f32Frac f).toNat, -149)
  else (2 ^ 23 + (f32Frac f).toNat, (f32Exp f).toNat - 150)

/-- `n` passes at most of the loop of R77: halve while even, exponent up. -/
def reduceLoop : Nat → Nat → Int → Nat × Int
  | 0, m, e => (m, e)
  | n + 1, m, e => if m % 2 = 0 then reduceLoop n (m >>> 1) (e + 1) else (m, e)

/-- `reduce(m, e)` (R77) for m ≥ 1: `bitlen m` passes are enough to reach an odd number. -/
def reduce (m : Nat) (e : Int) : Nat × Int := reduceLoop (bitlen m) m e

/-- The odd significand of `f` and its biased exponent, "adds BIAS" (R79, R82). -/
def f32Reduced (f : Word) : Nat × Int :=
  let (m, e) := reduce (f32Decode f).1 (f32Decode f).2
  (m, e + Config.bias)

/-- `exact_from_f32(f)` (R79): absent only when the biased exponent is negative. A zero significand is taken out
before the reduction (R81, decision D13). -/
def exactFromF32 (f : Word) : Option Value :=
  if (f32Decode f).1 = 0 then some (pack (f32Sign f).toNat 0 0)
  else
    let (m, eb) := f32Reduced f
    if eb < 0 then none else some (normalizePack (f32Sign f).toNat eb.toNat m)

/-- One pass of R82's loop per unit of `n`: the significand halved, the biased exponent up by one
(decision D15). -/
def raiseExponent : Nat → Nat → Int → Nat × Int
  | 0, m, eb => (m, eb)
  | n + 1, m, eb => if eb < 0 then raiseExponent n (m >>> 1) (eb + 1) else (m, eb)

/-- `approx_from_f32(f)` (R82): the loop runs until the biased exponent is non-negative, `−eb` times. -/
def approxFromF32 (f : Word) : Value :=
  if (f32Decode f).1 = 0 then pack (f32Sign f).toNat 0 0
  else
    let (m, eb) := f32Reduced f
    let (m', eb') := raiseExponent (-eb).toNat m eb
    normalizePack (f32Sign f).toNat eb'.toNat m'

/-! ### The meanings -/

/-- TOF32 (R78). -/
def execTof32 (v : Value) (s : State) : Host.Outcome State Fault Refusal :=
  .next (s.finish (toF32 v))

/-- XFROMF32 (R80): ABSENT is a status, not a stop (60_exceptions.md R91, R97). -/
def execXfromf32 (f : Word) (s : State) : Host.Outcome State Fault Refusal :=
  match exactFromF32 f with
  | some v => .next (s.finish (placeValue v))
  | none => .next (s.raise .absent)

/-- AFROMF32 (R83): always OK. -/
def execAfromf32 (f : Word) (s : State) : Host.Outcome State Fault Refusal :=
  .next (s.finish (placeValue (approxFromF32 f)))

end Sys2Proof.Machine
end

