-- ==== Sys2Proof/Machine/Multiplier.lean ====
section
/-! DEFINITION. The multiplier (43_multiplier.md). -/

namespace Sys2Proof.Machine

/-- The sign of a product: XOR of the operands' sign bits (R70). -/
def productSign (v w : Value) : Nat := (signBit v ^^^ signBit w).toNat

/-- The product's exponent before normalization, an integer from −2 to 12 (R70; 00_scope.md R8). -/
def productExponent (v w : Value) : Int :=
  (exponentField v).toNat + (exponentField w).toNat - Config.bias

/-- The product's significand before normalization, 0 to 225 (R70). -/
def productSignificand (v w : Value) : Nat :=
  (significandField v).toNat * (significandField w).toNat

/-- Exponent underflow (R71, decision D9): a zero of exponent 0 carrying the XOR sign; the product is
discarded. -/
def mulUnderflow (s : Nat) : Value := pack s 0 0

/-- `multiply(a, b)` (R70). -/
def multiplyValue (v w : Value) : Value :=
  if productExponent v w < 0 then mulUnderflow (productSign v w)
  else normalizePack (productSign v w) (productExponent v w).toNat (productSignificand v w)

/-- MUL (R70): always OK. -/
def execMul (v w : Value) (s : State) : Host.Outcome State Fault Refusal :=
  .next (s.finish (placeValue (multiplyValue v w)))

end Sys2Proof.Machine
end

