-- ==== Sys2Proof/Machine/Reserved.lean ====
section
/-! DEFINITION. The reserved codes (30_encoding.md R35, 60_exceptions.md R92): `st = ILLEGAL`, `y = 0`, whatever
the operands. The answer has no result (`Answer.result` is `none`): a reserved code is no operation that returns
zero. DEDUCED, see notes/assumptions/4.md. -/

namespace Sys2Proof.Machine

/-- Codes 18 and 19. -/
def execReserved1819 (_op : OpCode) (s : State) : Host.Outcome State Fault Refusal :=
  .next (s.raise .illegal)

/-- Codes 20 to 23. -/
def execReserved2023 (_op : OpCode) (s : State) : Host.Outcome State Fault Refusal :=
  .next (s.raise .illegal)

/-- Codes 24 to 31. -/
def execReserved2431 (_op : OpCode) (s : State) : Host.Outcome State Fault Refusal :=
  .next (s.raise .illegal)

end Sys2Proof.Machine
end

