-- ==== Sys2Proof/Machine/Dispatch.lean ====
section
/-! DEFINITION. One arm per constructor of `Instr`, in the table's order. -/

namespace Sys2Proof.Machine

def exec (i : Instr) (s : State) : Host.Outcome State Fault Refusal :=
  match i with
  | .zero => Sys2Proof.Machine.execZero s
  | .one => Sys2Proof.Machine.execOne s
  | .pack rs re rm => Sys2Proof.Machine.execPack rs re rm s
  | .sbit v => Sys2Proof.Machine.execSbit v s
  | .expf v => Sys2Proof.Machine.execExpf v s
  | .sigf v => Sys2Proof.Machine.execSigf v s
  | .isneg v => Sys2Proof.Machine.execIsneg v s
  | .isnneg v => Sys2Proof.Machine.execIsnneg v s
  | .sgn v => Sys2Proof.Machine.execSgn v s
  | .eq v w => Sys2Proof.Machine.execEq v w s
  | .norm e m => Sys2Proof.Machine.execNorm e m s
  | .neg v => Sys2Proof.Machine.execNeg v s
  | .add v w => Sys2Proof.Machine.execAdd v w s
  | .sub v w => Sys2Proof.Machine.execSub v w s
  | .mul v w => Sys2Proof.Machine.execMul v w s
  | .tof32 v => Sys2Proof.Machine.execTof32 v s
  | .xfromf32 f => Sys2Proof.Machine.execXfromf32 f s
  | .afromf32 f => Sys2Proof.Machine.execAfromf32 f s
  | .reserved1819 op => Sys2Proof.Machine.execReserved1819 op s
  | .reserved2023 op => Sys2Proof.Machine.execReserved2023 op s
  | .reserved2431 op => Sys2Proof.Machine.execReserved2431 op s

end Sys2Proof.Machine
end

