-- ==== Sys2Proof/Machine/Step.lean ====
section
/-! DEFINITION. One step: the request on the ports is evaluated and the outputs settle (70_reset_and_hazards.md
R105, R111). -/

namespace Sys2Proof.Machine

/-- "There is one agent, the block itself, and it takes one kind of step: evaluating a request" (R111). -/
def step (s : State) : Host.Outcome State Fault Refusal := exec (decode s.request) s

/-- The host presents the request a table word stands for; the next step evaluates exactly it. -/
def State.withFetchWord (s : State) (nbits w : Nat) : State :=
  s.present (requestOfWord (w % 2 ^ nbits))

end Sys2Proof.Machine
end

