-- ==== Sys2Proof/Machine/Denote.lean ====
section
/-! DEFINITION. What the bytes and patterns mean as numbers: the formula value of a Value (10_state.md R14) and
the number a binary32 pattern denotes (44_converter.md R75). No meaning of an instruction uses these; the claims
about exactness do. -/

namespace Sys2Proof.Machine

/-- `magnitude(v) = m × 2^(e − 2)` (R14), for all 256 bytes, the sentinels included. -/
def formulaMagnitude (v : Value) : ℚ :=
  (significandField v).toNat * (2 : ℚ) ^ (((exponentField v).toNat : ℤ) - Config.bias)

/-- `value(v)` (R14). -/
def formulaValue (v : Value) : ℚ :=
  if isNegative v then -formulaMagnitude v else formulaMagnitude v

/-- The magnitude a pattern of exponent field X ≠ 255 denotes (R75). -/
def f32Magnitude (f : Word) : ℚ :=
  if (f32Exp f).toNat = 0 then (f32Frac f).toNat * (2 : ℚ) ^ (-149 : ℤ)
  else (2 ^ 23 + (f32Frac f).toNat : ℕ) * (2 : ℚ) ^ (((f32Exp f).toNat : ℤ) - 150)

/-- The number a pattern denotes; none for X = 255, an infinity or a NaN (R75). -/
def f32Denotes (f : Word) : Option ℚ :=
  if (f32Exp f).toNat = 255 then none
  else some (if f32Sign f = 1 then -f32Magnitude f else f32Magnitude f)

/-- A canonical encoding (00_scope.md section 6; 44_converter.md R84): one of the two zeros, or an odd
significand with exponent field at most 6. -/
def canonical (v : Value) : Bool :=
  sgnIsZero v ||
    (decide ((significandField v).toNat % 2 = 1) && decide ((exponentField v).toNat ≤ 6))

end Sys2Proof.Machine
end

