-- ==== Sys2Proof/Machine/RequestList.lean ====
section
/-! DEFINITION. Request lists (30_encoding.md R39): what the spec calls a "program", a list of lines the HOST
evaluates in order, wiring earlier results to later operands. "The hardware sees only independent requests", so
this is a host built over `step`, and no part of the block. -/

namespace Sys2Proof.Machine

/-- An operand of a line: "a literal ... or the name of an earlier request" (R39); names are line numbers
from 0. -/
inductive ListOperand where
  | literal (n : Nat)
  | result (line : Nat)
deriving DecidableEq, Repr

/-- One line: a mnemonic, given by its code, and its operands in the order of R32. -/
structure ListLine where
  op       : OpCode
  operands : List ListOperand
deriving DecidableEq, Repr

/-- Why a list is refused. -/
inductive ListError where
  /-- An operand names this line or a later one: "It must be a **later** request" (70_reset_and_hazards.md R109;
  93_implementation_defined.md W4). Safe. -/
  | notEarlier (line : Nat)
  /-- The code has no mnemonic (R35), or the number of operands is not its format's (R32). Safe. -/
  | noSuchForm (op : OpCode) (count : Nat)
  /-- The block gave no answer; no step of this model does so. -/
  | noAnswer
deriving DecidableEq, Repr

/-- The request of a mnemonic and its operands, each truncated to its width (R39, R32). -/
def lineInstr (op : OpCode) (xs : List Nat) : Option Instr :=
  match op.toNat, xs with
  | 0, [] => some .zero
  | 1, [] => some .one
  | 2, [s, e, m] => some (.pack (BitVec.ofNat 8 s) (BitVec.ofNat 8 e) (BitVec.ofNat 8 m))
  | 3, [v] => some (.sbit (BitVec.ofNat 8 v))
  | 4, [v] => some (.expf (BitVec.ofNat 8 v))
  | 5, [v] => some (.sigf (BitVec.ofNat 8 v))
  | 6, [v] => some (.isneg (BitVec.ofNat 8 v))
  | 7, [v] => some (.isnneg (BitVec.ofNat 8 v))
  | 8, [v] => some (.sgn (BitVec.ofNat 8 v))
  | 9, [v, w] => some (.eq (BitVec.ofNat 8 v) (BitVec.ofNat 8 w))
  | 10, [e, m] => some (.norm (BitVec.ofNat 8 e) (BitVec.ofNat 24 m))
  | 11, [v] => some (.neg (BitVec.ofNat 8 v))
  | 12, [v, w] => some (.add (BitVec.ofNat 8 v) (BitVec.ofNat 8 w))
  | 13, [v, w] => some (.sub (BitVec.ofNat 8 v) (BitVec.ofNat 8 w))
  | 14, [v, w] => some (.mul (BitVec.ofNat 8 v) (BitVec.ofNat 8 w))
  | 15, [v] => some (.tof32 (BitVec.ofNat 8 v))
  | 16, [f] => some (.xfromf32 (BitVec.ofNat 32 f))
  | 17, [f] => some (.afromf32 (BitVec.ofNat 32 f))
  | _, _ => none

/-- The number an operand stands for: the literal, or the `y` of an earlier line. -/
def operandNumber (done : List Answer) : ListOperand → Except ListError Nat
  | .literal n => .ok n
  | .result k =>
    match done[k]? with
    | some r => .ok r.y.toNat
    | none => .error (.notEarlier k)

/-- The numbers of a line's operands, the first bad one reported. -/
def operandNumbers (done : List Answer) : List ListOperand → Except ListError (List Nat)
  | [] => .ok []
  | o :: os =>
    match operandNumber done o, operandNumbers done os with
    | .ok n, .ok ns => .ok (n :: ns)
    | .error e, _ => .error e
    | _, .error e => .error e

/-- One line: present the request, let the block answer, sample. -/
def runLine (done : List Answer) (l : ListLine) (s : State) : Except ListError (State × Answer) :=
  match operandNumbers done l.operands with
  | .error e => .error e
  | .ok xs =>
    match lineInstr l.op xs with
    | none => .error (.noSuchForm l.op xs.length)
    | some i =>
      match step (s.present (encode i)) with
      | .next t =>
        match t.out with
        | some r => .ok (t, r)
        | none => .error .noAnswer
      | .fault _ => .error .noAnswer
      | .refused _ => .error .noAnswer

/-- The lines in order; `done` holds the answers so far, the first line's first. -/
def runLines (done : List Answer) : List ListLine → State → Except ListError (List Answer)
  | [], _ => .ok done
  | l :: ls, s =>
    match runLine done l s with
    | .ok (t, r) => runLines (done ++ [r]) ls t
    | .error e => .error e

/-- A list from the start; "The start state of every program is empty" (95_test_vectors.md section 4). -/
def runList (ls : List ListLine) (s : State) : Except ListError (List Answer) := runLines [] ls s

/-- The number of operands of a mnemonic's format (R32); none for a reserved code. -/
def operandCount (op : OpCode) : Option Nat :=
  match op.toNat with
  | 0 | 1 => some 0
  | 2 => some 3
  | 3 | 4 | 5 | 6 | 7 | 8 | 11 | 15 | 16 | 17 => some 1
  | 9 | 10 | 12 | 13 | 14 => some 2
  | _ => none

/-- The operand names an earlier line only. -/
def ListOperand.refersBefore (n : Nat) : ListOperand → Bool
  | .literal _ => true
  | .result k => decide (k < n)

/-- A list whose lines, the first numbered `n`, are of their formats and refer to earlier lines only. -/
def listWellFormed : Nat → List ListLine → Bool
  | _, [] => true
  | n, l :: ls =>
    operandCount l.op == some l.operands.length && l.operands.all (ListOperand.refersBefore n) &&
      listWellFormed (n + 1) ls

end Sys2Proof.Machine
end

