-- ==== Sys2Proof/Safety.lean ====
section
/-! DEFINITION. What counts as a well-behaved block and a well-behaved host, in the terms the claims use. -/

namespace Sys2Proof.Safety

open Sys2Proof.Machine

/-- The outputs are what the present inputs give (70_reset_and_hazards.md R105): evaluating again changes
nothing. -/
def Settled (s : State) : Prop := step s = .next s

/-- How many low bits of `y` a code's result may occupy (30_encoding.md R33); no result for a reserved code. -/
def resultBits (op : OpCode) : Nat :=
  match op.toNat with
  | 0 => 8
  | 1 => 8
  | 2 => 8
  | 3 => 1
  | 4 => 3
  | 5 => 4
  | 6 => 1
  | 7 => 1
  | 8 => 8
  | 9 => 1
  | 10 => 7
  | 11 => 8
  | 12 => 8
  | 13 => 8
  | 14 => 8
  | 15 => 32
  | 16 => 8
  | 17 => 8
  | _ => 0

/-- An answer a request of this code may have: the placement of R33, and the status rules of 60_exceptions.md
R90 to R93. -/
def AnswerAllowed (op : OpCode) (r : Answer) : Prop :=
  r.y.toNat < 2 ^ resultBits op ∧
  (r.st ≠ .ok → r.y = 0) ∧
  (r.st = .illegal ↔ 18 ≤ op.toNat) ∧
  (r.st = .absent → op.toNat = 16) ∧
  r.st ≠ .fatal

/-- The outputs, where they have settled, hold an answer the present code may have. -/
def AnswerFits (s : State) : Prop := ∀ r, s.out = some r → AnswerAllowed s.op r

/-- The host's one rule (70_reset_and_hazards.md R108): inputs unchanged for `held` units of time before the
sample, and no less than `T_PD`. A step of the model is a request sampled so. -/
def SampledInTime (held : Nat) : Prop := Config.tPD ≤ held

end Sys2Proof.Safety
end

