-- ==== Sys2Proof/Certificates/Slice0/Obligations.lean ====
section
/-! DEFINITION. The statements for the provers. Results are stated as numbers, with the slices of 00_scope.md R5
(`v[hi:lo] = floor(v / 2^lo) mod 2^(hi−lo+1)`) and the rules' closed forms, never with the model's own loops and
bit-vector slices. In every statement that writes a next state out, all it does not name is as before: the ports
`op`, `a`, `b` are never written. -/

namespace Sys2Proof.Claims

open Sys2Proof.Machine

/-! ### What the statements are made of -/

/-- `s` with the outputs settled to the number `n` on `y` and status OK. -/
def answered (s : State) (n : Nat) : State :=
  { s with out := some { y := BitVec.ofNat 32 n, st := .ok } }

/-- `s` with the outputs settled to a non-OK status, `y = 0` (60_exceptions.md R90). -/
def raised (s : State) (c : Status) : State := { s with out := some { y := 0, st := c } }

/-- `s` with the request `r` on its input ports. Nothing else changes: whatever the outputs hold stays there, so
what the block then answers is its own doing, and not that of the host's `State.present`. -/
def driven (s : State) (r : Request) : State := { s with op := r.op, a := r.a, b := r.b }

/-- A one-Value operation (format V): the instruction answers `f` of its operand's number, and a request with this
code on `op` answers `f` of `a[7:0]`, whatever else the ports hold. -/
def UnaryAnswers (code : Nat) (i : Value → Instr) (f : Nat → Nat) : Prop :=
  (∀ (v : Value) (s : State), exec (i v) s = .next (answered s (f v.toNat))) ∧
  ∀ s : State, s.op.toNat = code → step s = .next (answered s (f (s.a.toNat % 256)))

/-- A two-Value operation (format VV): the same with `a[7:0]` and `b[7:0]`. -/
def BinaryAnswers (code : Nat) (i : Value → Value → Instr) (f : Nat → Nat → Nat) : Prop :=
  (∀ (v w : Value) (s : State), exec (i v w) s = .next (answered s (f v.toNat w.toNat))) ∧
  ∀ s : State, s.op.toNat = code →
    step s = .next (answered s (f (s.a.toNat % 256) (s.b.toNat % 256)))

/-- A byte as a number from its fields. -/
def byte (s : Nat) (p : Nat × Nat) : Nat := s * 128 + p.1 * 16 + p.2

/-- The closed form of the normalizer (41_normalizer.md R56), `k` the number of halvings. -/
def normalForm (e m : Nat) : Nat × Nat :=
  let k := bitlen m - 4
  if 7 ≤ e ∨ e < k then (7, 0) else (e - k, m / 2 ^ k)

/-- The sign, exponent and significand fields of a byte's number (10_state.md R12). -/
def sgnOf (n : Nat) : Nat := n / 128
/-- See `sgnOf`. -/
def expOf (n : Nat) : Nat := n / 16 % 8
/-- See `sgnOf`. -/
def sigOf (n : Nat) : Nat := n % 16

/-- The significand of `n` aligned to the larger exponent of `n` and `k` (42_adder.md R61, closed form). -/
def alignedSig (n k : Nat) : Nat := sigOf n * 2 ^ (max (expOf n) (expOf k) - expOf n)

/-- The byte ADD answers (42_adder.md R60 to R62), by the closed forms of R56 and R61. -/
def sumByte (n k : Nat) : Nat :=
  let e := max (expOf n) (expOf k)
  let x := alignedSig n k
  let y := alignedSig k n
  if sgnOf n = sgnOf k then byte (sgnOf n) (normalForm e (x + y))
  else if x = y then 0
  else if y < x then byte (sgnOf n) (normalForm e (x - y))
  else byte (sgnOf k) (normalForm e (y - x))

/-- The byte MUL answers (43_multiplier.md R70, R71). -/
def productByte (n k : Nat) : Nat :=
  let s := (sgnOf n + sgnOf k) % 2
  if expOf n + expOf k < 2 then byte s (0, 0)
  else byte s (normalForm (expOf n + expOf k - 2) (sigOf n * sigOf k))

/-- The sign of a binary32 pattern, `f[31]` (44_converter.md R75). -/
def patSign (f : Word) : Nat := f.toNat / 2 ^ 31

/-- The significand `decode` gives (44_converter.md R76). -/
def patSig (f : Word) : Nat :=
  if f.toNat / 2 ^ 23 % 256 = 0 then f.toNat % 2 ^ 23 else 2 ^ 23 + f.toNat % 2 ^ 23

/-- The exponent `decode` gives (44_converter.md R76). -/
def patExp (f : Word) : Int :=
  if f.toNat / 2 ^ 23 % 256 = 0 then -149 else (f.toNat / 2 ^ 23 % 256 : Nat) - 150

/-- `m` is the odd significand of `f`, and `eb` its exponent with BIAS added (44_converter.md R77, R79). -/
def OddForm (f : Word) (m : Nat) (eb : Int) : Prop :=
  m % 2 = 1 ∧ ∃ t : Nat, patSig f = m * 2 ^ t ∧ eb = patExp f + t + 2

/-- `f` denotes a number that is a multiple of 0.25, or is an infinity or a NaN (X = 255). -/
def MultipleOfQuarter (f : Word) : Prop :=
  ∀ q : ℚ, f32Denotes f = some q → ∃ z : ℤ, 4 * q = z

/-- What an operand of a request line stands for (30_encoding.md R39): the literal, or the `y` that the line it
names has among the list's answers `xs`. -/
def operandMeans (xs : List Answer) (o : ListOperand) (n : Nat) : Prop :=
  match o with
  | .literal k => n = k
  | .result k => ∃ x : Answer, xs[k]? = some x ∧ n = x.y.toNat

/-- The widths of a code's operands, in the order of 30_encoding.md R32. -/
def operandWidths (op : OpCode) : List Nat :=
  match op.toNat with
  | 2 => [8, 8, 8]
  | 3 | 4 | 5 | 6 | 7 | 8 | 11 | 15 => [8]
  | 9 | 12 | 13 | 14 => [8, 8]
  | 10 => [8, 24]
  | 16 | 17 => [32]
  | _ => []

/-- The operands of an instruction as numbers, in the order of 30_encoding.md R32. -/
def operandsOf : Instr → List Nat
  | .zero => []
  | .one => []
  | .pack s e m => [s.toNat, e.toNat, m.toNat]
  | .sbit v => [v.toNat]
  | .expf v => [v.toNat]
  | .sigf v => [v.toNat]
  | .isneg v => [v.toNat]
  | .isnneg v => [v.toNat]
  | .sgn v => [v.toNat]
  | .eq v w => [v.toNat, w.toNat]
  | .norm e m => [e.toNat, m.toNat]
  | .neg v => [v.toNat]
  | .add v w => [v.toNat, w.toNat]
  | .sub v w => [v.toNat, w.toNat]
  | .mul v w => [v.toNat, w.toNat]
  | .tof32 v => [v.toNat]
  | .xfromf32 f => [f.toNat]
  | .afromf32 f => [f.toNat]
  | .reserved1819 _ => []
  | .reserved2023 _ => []
  | .reserved2431 _ => []

end Sys2Proof.Claims

open Sys2Proof Sys2Proof.Machine Sys2Proof.Claims Sys2Proof.Safety

/-! ### The machine -/

/-- Every word the decoder accepts is well-formed and is what the next step runs after `withFetchWord`; at any
state the step is `exec` of the decoded request (30_encoding.md R30; 70_reset_and_hazards.md R111). This hardware
adds nothing around it: no program counter moves. -/
def Obligations.StepRunsDecodedRequest : Prop :=
  (∀ (s : State) (nbits w : Nat) (i : Instr), decodeTableWord nbits w = some i →
    i.wellFormed = true ∧
    decode (s.withFetchWord nbits w).request = i ∧
    step (s.withFetchWord nbits w) = exec i (s.withFetchWord nbits w)) ∧
  ∀ (s : State) (i : Instr), decode s.request = i → i.wellFormed = true ∧ step s = exec i s

/-- The operation codes and the operand slices of R34 and R32, row by row, the operands as numbers. -/
def Obligations.OperationCodesSelectRowsAndOperands : Prop :=
  ∀ s : State,
    (s.op.toNat = 0 → step s = exec .zero s) ∧
    (s.op.toNat = 1 → step s = exec .one s) ∧
    (s.op.toNat = 2 → step s = exec (.pack (BitVec.ofNat 8 (s.a.toNat / 2 ^ 16))
      (BitVec.ofNat 8 (s.a.toNat / 2 ^ 8)) (BitVec.ofNat 8 s.a.toNat)) s) ∧
    (s.op.toNat = 3 → step s = exec (.sbit (BitVec.ofNat 8 s.a.toNat)) s) ∧
    (s.op.toNat = 4 → step s = exec (.expf (BitVec.ofNat 8 s.a.toNat)) s) ∧
    (s.op.toNat = 5 → step s = exec (.sigf (BitVec.ofNat 8 s.a.toNat)) s) ∧
    (s.op.toNat = 6 → step s = exec (.isneg (BitVec.ofNat 8 s.a.toNat)) s) ∧
    (s.op.toNat = 7 → step s = exec (.isnneg (BitVec.ofNat 8 s.a.toNat)) s) ∧
    (s.op.toNat = 8 → step s = exec (.sgn (BitVec.ofNat 8 s.a.toNat)) s) ∧
    (s.op.toNat = 9 → step s = exec (.eq (BitVec.ofNat 8 s.a.toNat) (BitVec.ofNat 8 s.b.toNat)) s) ∧
    (s.op.toNat = 10 → step s = exec (.norm (BitVec.ofNat 8 (s.a.toNat / 2 ^ 24))
      (BitVec.ofNat 24 s.a.toNat)) s) ∧
    (s.op.toNat = 11 → step s = exec (.neg (BitVec.ofNat 8 s.a.toNat)) s) ∧
    (s.op.toNat = 12 → step s = exec (.add (BitVec.ofNat 8 s.a.toNat) (BitVec.ofNat 8 s.b.toNat)) s) ∧
    (s.op.toNat = 13 → step s = exec (.sub (BitVec.ofNat 8 s.a.toNat) (BitVec.ofNat 8 s.b.toNat)) s) ∧
    (s.op.toNat = 14 → step s = exec (.mul (BitVec.ofNat 8 s.a.toNat) (BitVec.ofNat 8 s.b.toNat)) s) ∧
    (s.op.toNat = 15 → step s = exec (.tof32 (BitVec.ofNat 8 s.a.toNat)) s) ∧
    (s.op.toNat = 16 → step s = exec (.xfromf32 s.a) s) ∧
    (s.op.toNat = 17 → step s = exec (.afromf32 s.a) s)

/-- Operand bits a format does not name are ignored (30_encoding.md R36): two states that agree on the code and
on the named bits get the same answer. A reserved code names no bit and answers the same whatever `a` and `b` hold
(R35); that the model completes such a request is its reading: notes/assumptions/4.md. -/
def Obligations.UnnamedOperandBitsAreIgnored : Prop :=
  ∀ s s' : State, s.op = s'.op →
    s.a &&& namedA s.op = s'.a &&& namedA s.op → s.b &&& namedB s.op = s'.b &&& namedB s.op →
    ∃ x : Answer, step s = .next { s with out := some x } ∧ step s' = .next { s' with out := some x }

/-- The whole machine is one total function of the request on the ports (00_scope.md R9; 30_encoding.md R30;
70_reset_and_hazards.md R105): every step, from every state, answers, reads nothing but `op`, `a`, `b`, and changes
nothing but the outputs. Every state takes in the reserved codes, which select no operation (30_encoding.md R35);
that the model completes a request with one is its reading: notes/assumptions/4.md. -/
def Obligations.AnswerIsTotalFunctionOfRequest : Prop :=
  ∃ f : Request → Answer, ∀ s : State,
    step s = .next { s with out := some (f { op := s.op, a := s.a, b := s.b }) }

/-- A step settles the outputs: a second evaluation, and a second presentation of the same request, give the same
state (20_memory.md R23; 70_reset_and_hazards.md R105). -/
def Obligations.StepSettlesTheOutputs : Prop :=
  ∀ s t : State, step s = .next t → Settled t ∧ step (t.present s.request) = .next t

/-- What was asked before cannot be observed (10_state.md R11; 20_memory.md R25): from whatever state, with whatever
request `r₁` evaluated first and its answer still on the outputs, driving the input ports with `r₂` and evaluating
it ends in one and the same state, which is made of `r₂` alone (30_encoding.md R30); both requests complete. A
reserved code (R35) may be in either; that the model completes such a request is its reading:
notes/assumptions/4.md. -/
def Obligations.EarlierRequestsAreUnobservable : Prop :=
  ∃ f : Request → Answer, ∀ (s : State) (r₁ r₂ : Request), ∃ t₁ : State,
    step (driven s r₁) = .next t₁ ∧ t₁.out = some (f r₁) ∧
    step (driven t₁ r₂) = .next { op := r₂.op, a := r₂.a, b := r₂.b, out := some (f r₂) }

/-- The answer invariant: every step leaves the outputs settled to an answer its code may have. The result stays
inside the field R33 gives it, a non-OK status carries `y = 0`, ILLEGAL is there exactly for the codes 18 to 31,
ABSENT for XFROMF32 only, FATAL never (60_exceptions.md R90 to R93). Presenting a request keeps it too; this clause
is the model's choice, notes/assumptions/2.md: R108 of 70_reset_and_hazards.md lets the outputs take any value while
they settle, and the model holds none then. -/
def Obligations.AnswersFitTheirCode : Prop :=
  (∀ s t : State, AnswerFits s → step s = .next t → t.out.isSome = true ∧ AnswerFits t) ∧
  ∀ (s : State) (r : Request), AnswerFits s → AnswerFits (s.present r)

/-- The reset state has the answer invariant and is settled. Its input values are the model's choice
(notes/assumptions/1.md). -/
def Obligations.ResetAnswerFitsAndIsSettled : Prop :=
  AnswerFits State.reset ∧ Settled State.reset

/-- Status 3 is never driven, and the alignment whose failure it stands for always converges
(60_exceptions.md R93; 42_adder.md R63). -/
def Obligations.FatalIsNeverDriven : Prop :=
  (∀ (s t : State) (x : Answer), step s = .next t → t.out = some x → x.st.code ≠ 3) ∧
  ∀ ea ma eb mb : Nat, (align ea ma eb mb).ea = (align ea ma eb mb).eb

/-- Saturation, truncation and multiply underflow raise nothing: every code but XFROMF32's and the reserved ones
answers OK, from every state (60_exceptions.md R94). -/
def Obligations.OnlyExactConversionAndReservedCodesAreNotOk : Prop :=
  ∀ s : State, s.op.toNat < 18 → s.op.toNat ≠ 16 →
    ∃ y : Word, step s = .next { s with out := some { y := y, st := .ok } }

/-- A reserved code answers ILLEGAL with `y = 0`, whatever `a` and `b` hold, and the answer has no result
(30_encoding.md R35; 60_exceptions.md R92). That the model completes such a request, where those rules advise a
model to refuse it, is the model's reading: notes/assumptions/4.md. -/
def Obligations.ReservedCodesAnswerIllegal : Prop :=
  (∀ (op : OpCode) (s : State), exec (.reserved1819 op) s = .next (raised s .illegal) ∧
    exec (.reserved2023 op) s = .next (raised s .illegal) ∧
    exec (.reserved2431 op) s = .next (raised s .illegal)) ∧
  (∀ s : State, 18 ≤ s.op.toNat → step s = .next (raised s .illegal)) ∧
  ({ y := 0, st := .illegal } : Answer).result = none

/-! ### Encoding -/

/-- Decoding an encoded well-formed instruction gives it back, every operand at every value. -/
def Obligations.DecodeOfEncode : Prop :=
  ∀ i : Instr, i.wellFormed = true →
    decode (encode i) = i ∧ decodeTableWord 72 (encodeWord i) = some i

/-- Encoding a decoded request gives it back with the bits its format does not name at 0 (30_encoding.md R36). -/
def Obligations.EncodeOfDecode : Prop :=
  ∀ r : Request, (decode r).wellFormed = true ∧ encode (decode r) = r.clean

/-- The word form `{op, b, a}` and the ports are each other's inverse (30_encoding.md R30). -/
def Obligations.RequestWordsArePortAssignments : Prop :=
  (∀ r : Request, r.word = r.op.toNat * 2 ^ 64 + r.b.toNat * 2 ^ 32 + r.a.toNat ∧
    requestOfWord r.word = r) ∧
  ∀ w : Nat, w < 2 ^ 69 → (requestOfWord w).word = w

/-- `REQ` words of 95_test_vectors.md section 4, one of each sub-block at least. -/
def Obligations.SpecWordsDecode : Prop :=
  decodeTableWord 72 0x020000000000010305 = some (.pack 1 3 5) ∧
  decodeTableWord 72 0x0A00000000060000E1 = some (.norm 6 225) ∧
  decodeTableWord 72 0x0C0000001100000023 = some (.add 0x23 0x11) ∧
  decodeTableWord 72 0x0D000000B500000000 = some (.sub 0x00 0xB5) ∧
  decodeTableWord 72 0x0E0000003100000013 = some (.mul 0x13 0x31) ∧
  decodeTableWord 72 0x10000000003E99999A = some (.xfromf32 0x3E99999A)

/-! ### The codec -/

/-- ZERO and ONE, and what they convert to (40_codec.md R48, R49). -/
def Obligations.ConstantsAnswer : Prop :=
  (∀ s : State, exec .zero s = .next (answered s 0x00000000) ∧
    exec .one s = .next (answered s 0x00000021)) ∧
  (∀ s : State, s.op.toNat = 0 → step s = .next (answered s 0x00000000)) ∧
  (∀ s : State, s.op.toNat = 1 → step s = .next (answered s 0x00000021)) ∧
  ∀ s : State, exec (.tof32 0x00) s = .next (answered s 0x00000000) ∧
    exec (.tof32 0x21) s = .next (answered s 0x3F800000)

/-- Whatever the host puts on `a` and `b`, `op = 0` settles to `y = 0`, OK (70_reset_and_hazards.md R106). -/
def Obligations.CodeZeroSettlesToZero : Prop :=
  ∀ s : State, s.op = 0 → step s = .next { s with out := some { y := 0x00000000, st := .ok } }

/-- PACK masks its three raw bytes (40_codec.md R40). -/
def Obligations.PackMasksItsFields : Prop :=
  (∀ (rs re rm : BitVec 8) (s : State), exec (.pack rs re rm) s =
    .next (answered s (byte (rs.toNat % 2) (re.toNat % 8, rm.toNat % 16)))) ∧
  ∀ s : State, s.op.toNat = 2 → step s =
    .next (answered s (byte (s.a.toNat / 2 ^ 16 % 2) (s.a.toNat / 2 ^ 8 % 8, s.a.toNat % 16)))

/-- SBIT, EXPF and SIGF answer `v[7]`, `v[6:4]` and `v[3:0]` (40_codec.md R41 to R43). -/
def Obligations.AccessorsAnswerTheirSlices : Prop :=
  UnaryAnswers 3 .sbit (fun v => v / 2 ^ 7 % 2) ∧
  UnaryAnswers 4 .expf (fun v => v / 2 ^ 4 % 8) ∧
  UnaryAnswers 5 .sigf (fun v => v % 16)

/-- ISNEG answers the sign bit and ISNNEG its complement (40_codec.md R44, R45). -/
def Obligations.SignPredicatesAnswerTheSignBit : Prop :=
  UnaryAnswers 6 .isneg (fun v => v / 2 ^ 7 % 2) ∧
  UnaryAnswers 7 .isnneg (fun v => 1 - v / 2 ^ 7 % 2)

/-- SGN answers 0 for the two zeros only, and else 0x01 or 0xFF by the sign bit (40_codec.md R46). -/
def Obligations.SignedDigitAnswers : Prop :=
  UnaryAnswers 8 .sgn (fun v => if v % 2 ^ 7 = 0 then 0x00 else if v / 2 ^ 7 % 2 = 1 then 0xFF else 0x01)

/-- EQ is bit-pattern equality of the two bytes (40_codec.md R47). -/
def Obligations.EqualityIsOfBitPatterns : Prop :=
  BinaryAnswers 9 .eq (fun v w => if v = w then 1 else 0)

/-- The round trips of the codec (40_codec.md R50): packing a byte's fields gives the byte, and the fields of a
packed triple are the masked triple. -/
def Obligations.PackAndAccessorsAreInverse : Prop :=
  (∀ v : Value,
    pack (signBit v).toNat (exponentField v).toNat (significandField v).toNat = v) ∧
  ∀ s e m : Nat, (signBit (pack s e m)).toNat = s % 2 ∧
    (exponentField (pack s e m)).toNat = e % 8 ∧ (significandField (pack s e m)).toNat = m % 16

/-! ### The normalizer -/

/-- The loop of R55 and the closed form of R56 agree on every pair of natural numbers. -/
def Obligations.NormalizeHasClosedForm : Prop :=
  ∀ e m : Nat, normalizePair e m = normalForm e m

/-- NORM answers the normalized pair packed with sign 0 (41_normalizer.md R57). -/
def Obligations.NormAnswers : Prop :=
  (∀ (e : BitVec 8) (m : BitVec 24) (s : State), exec (.norm e m) s =
    .next (answered s (byte 0 (normalForm e.toNat m.toNat)))) ∧
  ∀ s : State, s.op.toNat = 10 → step s =
    .next (answered s (byte 0 (normalForm (s.a.toNat / 2 ^ 24) (s.a.toNat % 2 ^ 24))))

/-- Properties (a), (b) and (c) of R58: the pair fits the fields; a pair already in range is unchanged; a nonzero
significand never becomes 0 short of saturation, and is at least 8 after any halving. -/
def Obligations.NormalizedPairsFit : Prop :=
  ∀ e m : Nat,
    ((normalizePair e m).2 ≤ 15 ∧ (normalizePair e m).1 ≤ 7) ∧
    (m ≤ 15 → e ≤ 6 → normalizePair e m = (e, m)) ∧
    ((normalizePair e m).2 = 0 → m = 0 ∨ normalizePair e m = (7, 0)) ∧
    (15 < m → normalizePair e m = (7, 0) ∨ 8 ≤ (normalizePair e m).2)

/-! ### The adder -/

/-- NEG flips the sign bit only, and undoes itself (42_adder.md R64). -/
def Obligations.NegFlipsTheSignBitOnly : Prop :=
  UnaryAnswers 11 .neg (fun v => (v + 128) % 256) ∧
  ∀ v : Value, negateValue (negateValue v) = v ∧
    exponentField (negateValue v) = exponentField v ∧
    significandField (negateValue v) = significandField v

/-- The closed form of the alignment loops, for all exponents and significands (42_adder.md R61). -/
def Obligations.AlignmentHasClosedForm : Prop :=
  ∀ ea ma eb mb : Nat, align ea ma eb mb =
    { ea := max ea eb, xa := ma * 2 ^ (max ea eb - ea),
      eb := max ea eb, xb := mb * 2 ^ (max ea eb - eb) }

/-- ADD answers the byte that alignment, the sign arms and the normalizer give (42_adder.md R60 to R62). -/
def Obligations.AddAnswers : Prop := BinaryAnswers 12 .add sumByte

/-- SUB answers ADD's byte for the first operand and the negated second (42_adder.md R65), and a Value minus itself
is 0x00. -/
def Obligations.SubAnswersAddOfNegated : Prop :=
  BinaryAnswers 13 .sub (fun v w => sumByte v ((w + 128) % 256)) ∧
  (∀ (v w : Value) (s : State), exec (.sub v w) s = exec (.add v (w ^^^ 0x80)) s) ∧
  ∀ (v : Value) (s : State), exec (.sub v v) s = .next (answered s 0x00)

/-- ADD is commutative, bit for bit (42_adder.md R66). -/
def Obligations.AddCommutes : Prop :=
  ∀ (v w : Value) (s : State), exec (.add v w) s = exec (.add w v) s

/-- A Value plus its negation is the byte 0x00, the sentinels and the zeros included (42_adder.md R66). -/
def Obligations.AddOfNegationIsZero : Prop :=
  ∀ (v : Value) (s : State), exec (.add v (negateValue v)) s = .next (answered s 0x00)

/-- Where nothing is doubled, halved or saturated, ADD is the exact sum of the formula values: equal exponents, and
opposite signs with exponent at most 6 or equal significands (42_adder.md R62), or equal signs with exponent at
most 6 and significands that sum to at most 15 (R67 a). -/
def Obligations.AddIsExactWithoutScaling : Prop :=
  ∀ (v w : Value) (s : State), exponentField v = exponentField w →
    (isNegative v = isNegative w → (significandField v).toNat + (significandField w).toNat ≤ 15) →
    ((exponentField v).toNat ≤ 6 ∨
      isNegative v ≠ isNegative w ∧ significandField v = significandField w) →
    ∃ u : Value, exec (.add v w) s = .next (answered s u.toNat) ∧
      formulaValue u = formulaValue v + formulaValue w

/-- Where an operand has exponent 7, ADD answers 0x00 if the signs differ and the aligned significands are equal,
and else a sentinel, of the common sign or that of the larger aligned significand (42_adder.md R67 c). -/
def Obligations.AddSaturatesAtExponentSeven : Prop :=
  ∀ (v w : Value) (s : State), (expOf v.toNat = 7 ∨ expOf w.toNat = 7) →
    exec (.add v w) s = .next (answered s
      (if isNegative v ≠ isNegative w ∧ alignedSig v.toNat w.toNat = alignedSig w.toNat v.toNat then 0x00
       else if alignedSig v.toNat w.toNat < alignedSig w.toNat v.toNat
         then (if isNegative w then 0xF0 else 0x70)
       else (if isNegative v then 0xF0 else 0x70)))

/-! ### The multiplier -/

/-- MUL answers the byte that the sign XOR, the exponent sum less BIAS and the significand product give, and a
signed zero where the exponents sum to less than BIAS (43_multiplier.md R70, R71). -/
def Obligations.MulAnswers : Prop := BinaryAnswers 14 .mul productByte

/-- MUL is commutative, and its sign is the XOR of the operands' signs, for all Values (43_multiplier.md R72). -/
def Obligations.MulCommutesAndXorsSigns : Prop :=
  (∀ (v w : Value) (s : State), exec (.mul v w) s = exec (.mul w v) s) ∧
  ∀ (v w : Value) (s : State), ∃ u : Value, exec (.mul v w) s = .next (answered s u.toNat) ∧
    signBit u = signBit v ^^^ signBit w

/-- Where the exponent is in range and the product fits, MUL is the exact product of the formula values
(43_multiplier.md R72 a). -/
def Obligations.MulIsExactWithoutScaling : Prop :=
  ∀ (v w : Value) (s : State),
    2 ≤ (exponentField v).toNat + (exponentField w).toNat →
    (exponentField v).toNat + (exponentField w).toNat ≤ 8 →
    (significandField v).toNat * (significandField w).toNat ≤ 15 →
    ∃ u : Value, exec (.mul v w) s = .next (answered s u.toNat) ∧
      formulaValue u = formulaValue v * formulaValue w

/-- The constants are identities except where the rules list the failures: ADD with 0x00 for exponent 7 with a
nonzero significand and for a negative byte of significand 0; MUL with 0x21 for exponent 7 with a nonzero
significand (10_state.md R18; 42_adder.md R66; 43_multiplier.md R72 d). -/
def Obligations.IdentitiesFailExactlyWhereListed : Prop :=
  ∀ (v : Value) (s : State),
    (exec (.add 0x00 v) s = .next (answered s v.toNat) ↔
      ¬(expOf v.toNat = 7 ∧ sigOf v.toNat ≠ 0) ∧ ¬(sgnOf v.toNat = 1 ∧ sigOf v.toNat = 0)) ∧
    (exec (.mul 0x21 v) s = .next (answered s v.toNat) ↔ ¬(expOf v.toNat = 7 ∧ sigOf v.toNat ≠ 0))

/-! ### The converter -/

/-- TOF32 answers the pattern R78 assembles: a signed zero for significand 0, and else sign, exponent field
125 + e + p and fraction (m − 2^p) × 2^(23 − p), with p the position of m's leading one. -/
def Obligations.Tof32AnswersThePattern : Prop :=
  UnaryAnswers 15 .tof32 (fun v =>
    let p := bitlen (sigOf v) - 1
    if sigOf v = 0 then sgnOf v * 2 ^ 31
    else sgnOf v * 2 ^ 31 + (125 + expOf v + p) * 2 ^ 23 + (sigOf v - 2 ^ p) * 2 ^ (23 - p))

/-- TOF32 is exact: its pattern denotes the byte's formula value and carries its sign, for all 256 bytes
(44_converter.md R78; 10_state.md R14). -/
def Obligations.Tof32DenotesTheFormulaValue : Prop :=
  ∀ (v : Value) (s : State), ∃ y : Word,
    exec (.tof32 v) s = .next { s with out := some { y := y, st := .ok } } ∧
    f32Denotes y = some (formulaValue v) ∧ patSign y = sgnOf v.toNat

/-- `decode` loses nothing: for X ≠ 255 its significand and exponent give the denoted number, and the significand
is below 2^24 (44_converter.md R76). -/
def Obligations.DecodeDenotesItsPattern : Prop :=
  ∀ f : Word, (f32Exp f).toNat ≠ 255 →
    (f32Decode f).1 < 2 ^ 24 ∧ -149 ≤ (f32Decode f).2 ∧ (f32Decode f).2 ≤ 104 ∧
    f32Denotes f = some ((-1) ^ (f32Sign f).toNat * ((f32Decode f).1 : ℚ) * (2 : ℚ) ^ (f32Decode f).2)

/-- The reduction of R77: the significand over the largest power of 2 in it, the exponent up by as much. -/
def Obligations.ReductionStripsTrailingZeros : Prop :=
  ∀ (m : Nat) (e : Int), 1 ≤ m →
    (reduce m e).1 % 2 = 1 ∧ ∃ t : Nat, m = (reduce m e).1 * 2 ^ t ∧ (reduce m e).2 = e + t

/-- XFROMF32, the table of R79 and R81: a signed zero for ±0.0; ABSENT exactly for a negative biased exponent; and
else the normalized odd form, with the pattern's sign. -/
def Obligations.ExactConversionAnswers : Prop :=
  (∀ (f : Word) (s : State), patSig f = 0 →
    exec (.xfromf32 f) s = .next (answered s (byte (patSign f) (0, 0)))) ∧
  (∀ (f : Word) (s : State) (m : Nat) (eb : Int), OddForm f m eb → 0 ≤ eb →
    exec (.xfromf32 f) s = .next (answered s (byte (patSign f) (normalForm eb.toNat m)))) ∧
  (∀ (f : Word) (s : State) (m : Nat) (eb : Int), OddForm f m eb → eb < 0 →
    exec (.xfromf32 f) s = .next (raised s .absent)) ∧
  ∀ s : State, s.op.toNat = 16 → step s = exec (.xfromf32 s.a) s

/-- ABSENT, in numbers: XFROMF32 is ABSENT exactly when the input denotes a number that is no multiple of 0.25, and
has a result otherwise (44_converter.md R80; 60_exceptions.md R91). -/
def Obligations.AbsentExactlyOffTheQuarterGrid : Prop :=
  ∀ (f : Word) (s : State),
    (MultipleOfQuarter f → ∃ v : Value, exec (.xfromf32 f) s = .next (answered s v.toNat)) ∧
    (¬MultipleOfQuarter f → exec (.xfromf32 f) s = .next (raised s .absent))

/-- XFROMF32 as the option type R91 of 60_exceptions.md asks for: what its answer MEANS is `exact_from_f32`'s
result, zero-extended, and nothing where that is absent; the 0 on `y` is then no Value. -/
def Obligations.ExactConversionMeansItsOption : Prop :=
  ∀ (f : Word) (s : State), ∃ x : Answer, exec (.xfromf32 f) s = .next { s with out := some x } ∧
    x.result = (exactFromF32 f).map (fun v => BitVec.ofNat 32 v.toNat)

/-- AFROMF32 (44_converter.md R82, R83): as XFROMF32 where the biased exponent is not negative, and else the odd
significand shifted right by as much as the exponent lacks, normalized at exponent 0. -/
def Obligations.ApproxConversionAnswers : Prop :=
  (∀ (f : Word) (s : State), patSig f = 0 →
    exec (.afromf32 f) s = .next (answered s (byte (patSign f) (0, 0)))) ∧
  (∀ (f : Word) (s : State) (m : Nat) (eb : Int), OddForm f m eb → 0 ≤ eb →
    exec (.afromf32 f) s = .next (answered s (byte (patSign f) (normalForm eb.toNat m)))) ∧
  (∀ (f : Word) (s : State) (m : Nat) (eb : Int), OddForm f m eb → eb < 0 →
    exec (.afromf32 f) s = .next (answered s (byte (patSign f) (normalForm 0 (m / 2 ^ (-eb).toNat))))) ∧
  ∀ s : State, s.op.toNat = 17 → step s = exec (.afromf32 s.a) s

/-- Where XFROMF32 has a result, AFROMF32 answers the same state (44_converter.md R82). -/
def Obligations.ApproxExtendsExact : Prop :=
  ∀ (f : Word) (s t : State) (y : Word), exec (.xfromf32 f) s = .next t →
    t.out = some { y := y, st := .ok } → exec (.afromf32 f) s = .next t

/-- A number below 0.25 in magnitude becomes the zero of its sign under AFROMF32 (44_converter.md R82, R85). -/
def Obligations.ApproxOfSmallIsSignedZero : Prop :=
  ∀ (f : Word) (s : State) (q : ℚ), f32Denotes f = some q → |q| < 1 / 4 →
    exec (.afromf32 f) s = .next (answered s (byte (patSign f) (0, 0)))

/-- Infinities and NaNs become the sentinel of their sign under both conversions, status OK
(44_converter.md R85). -/
def Obligations.SpecialInputsSaturate : Prop :=
  ∀ (f : Word) (s : State), f.toNat / 2 ^ 23 % 256 = 255 →
    exec (.xfromf32 f) s = .next (answered s (byte (patSign f) (7, 0))) ∧
    exec (.afromf32 f) s = .next (answered s (byte (patSign f) (7, 0)))

/-- Where the input denotes the formula value of a canonical byte, both conversions are exact, sign of zero included
(44_converter.md R79, the table's third row; R84). -/
def Obligations.ConversionOfCanonicalIsExact : Prop :=
  ∀ (f : Word) (u : Value) (s : State), canonical u = true → f32Denotes f = some (formulaValue u) →
    ∃ v : Value, exec (.xfromf32 f) s = .next (answered s v.toNat) ∧
      exec (.afromf32 f) s = .next (answered s v.toNat) ∧
      formulaValue v = formulaValue u ∧ sgnOf v.toNat = patSign f

/-- The round trip to binary32 and back: both conversions give a byte back exactly if it is canonical, and the exact
one is never absent; 114 bytes are canonical (44_converter.md R84). -/
def Obligations.RoundTripExactlyOnCanonical : Prop :=
  (∀ v : Value, (exactFromF32 (toF32 v) = some v ↔ canonical v = true) ∧
    (approxFromF32 (toF32 v) = v ↔ canonical v = true) ∧ exactFromF32 (toF32 v) ≠ none) ∧
  ((List.range 256).filter (fun n => canonical (BitVec.ofNat 8 n))).length = 114

/-- The ranges of the intermediate quantities (00_scope.md R8), for all operands. -/
def Obligations.IntermediateRanges : Prop :=
  (∀ v w : Value,
    let p := align (exponentField v).toNat (significandField v).toNat
      (exponentField w).toNat (significandField w).toNat
    p.xa ≤ 1920 ∧ p.xb ≤ 1920 ∧ p.xa + p.xb ≤ 1935 ∧ p.ea ≤ 7 ∧
    productSignificand v w ≤ 225 ∧ -2 ≤ productExponent v w ∧ productExponent v w ≤ 12) ∧
  ∀ f : Word, (f32Decode f).1 < 2 ^ 24 ∧ ((f32Decode f).1 ≠ 0 →
    -149 ≤ (reduce (f32Decode f).1 (f32Decode f).2).2 ∧
    (reduce (f32Decode f).1 (f32Decode f).2).2 ≤ 128 ∧
    -147 ≤ (f32Reduced f).2 ∧ (f32Reduced f).2 ≤ 130 ∧ bitlen (f32Reduced f).1 - 4 ≤ 20)

/-! ### Request lists -/

/-- A request list whose lines have their formats and refer to earlier lines only runs to its end, with the same
answers from every state: one a line, and each is what `exec` answers to the instruction of that line, whose
operands are the literals, or the `y` of the lines named, truncated to their widths (30_encoding.md R39, R32;
10_state.md R11). That a LITERAL too wide is truncated as well, that the `y` is taken whatever its line's status,
and that a reserved code has no line, are the model's reading: notes/assumptions/8.md. -/
def Obligations.WellFormedListsRun : Prop :=
  ∀ ls : List ListLine, listWellFormed 0 ls = true →
    ∃ xs : List Answer, xs.length = ls.length ∧ (∀ s : State, runList ls s = .ok xs) ∧
      ∀ (k : Nat) (l : ListLine) (x : Answer), ls[k]? = some l → xs[k]? = some x →
        ∃ (ns : List Nat) (i : Instr),
          List.Forall₂ (operandMeans (xs.take k)) l.operands ns ∧
          lineInstr l.op ns = some i ∧ i.opCode = l.op ∧
          operandsOf i = List.zipWith (fun n width => n % 2 ^ width) ns (operandWidths l.op) ∧
          ∀ s : State, exec i s = .next { s with out := some x }

/-- A line that names its own result, or a later one, is refused by name, whatever its other operands are. The spec
gives a combinational loop no meaning (70_reset_and_hazards.md R109) and its table tells a model to refuse one
(93_implementation_defined.md W4); that such a line is that case, and the name it is refused by, are the model's
reading: notes/assumptions/8.md. -/
def Obligations.FeedbackWithinARequestIsRefused : Prop :=
  ∀ (done : List Answer) (l : ListLine) (s : State) (k : Nat),
    .result k ∈ l.operands → done.length ≤ k →
    ∃ j : Nat, done.length ≤ j ∧ runLine done l s = .error (.notEarlier j)
end

