-- ==== Sys2Proof/Laws/Codec.lean ====
section
/-! SUPPORT. The codec's functions and the placement of results as arithmetic on natural numbers, and one law
for each shared loop: what the other laws and the proofs cite instead of unfolding them. -/

namespace Sys2Proof

/-- Zero extension keeps the number, for fields no wider than the port. -/
theorem zext_toNat {n : Nat} (h : n ≤ 32) (x : BitVec n) : (zext x).toNat = x.toNat := by
  have : x.toNat < 2 ^ 32 := lt_of_lt_of_le x.isLt (Nat.pow_le_pow_right (by norm_num) h)
  rw [zext, BitVec.toNat_setWidth, Nat.mod_eq_of_lt this]

/-- Concatenation (00_scope.md R5) as arithmetic. -/
theorem append_toNat {n m : Nat} (x : BitVec n) (y : BitVec m) :
    (x ++ y).toNat = x.toNat * 2 ^ m + y.toNat := by
  rw [BitVec.toNat_append, ← Nat.shiftLeft_add_eq_or_of_lt y.isLt, Nat.shiftLeft_eq]

/-- PACK's operands on the port `a` (30_encoding.md R32, format T). -/
theorem portA_pack_toNat (s e m : BitVec 8) :
    (Instr.pack s e m).portA.toNat = s.toNat * 2 ^ 16 + e.toNat * 2 ^ 8 + m.toNat := by
  have h : (Instr.pack s e m).portA = zext (s ++ e ++ m) := rfl
  rw [h, zext_toNat (by norm_num), append_toNat, append_toNat]
  ring

/-- NORM's operands on the port `a` (30_encoding.md R32, format EM). -/
theorem portA_norm_toNat (e : BitVec 8) (m : BitVec 24) :
    (Instr.norm e m).portA.toNat = e.toNat * 2 ^ 24 + m.toNat := append_toNat e m

end Sys2Proof

namespace Sys2Proof.Machine

/-! ### Fields -/

theorem signBit_toNat (v : Value) : (signBit v).toNat = v.toNat / 128 := by
  have := v.isLt
  simp only [signBit, BitVec.extractLsb'_toNat, Nat.shiftRight_eq_div_pow]
  omega

theorem exponentField_toNat (v : Value) : (exponentField v).toNat = v.toNat / 16 % 8 := by
  simp only [exponentField, BitVec.extractLsb'_toNat, Nat.shiftRight_eq_div_pow]

theorem significandField_toNat (v : Value) : (significandField v).toNat = v.toNat % 16 := by
  simp only [significandField, BitVec.extractLsb'_toNat, Nat.shiftRight_eq_div_pow]
  omega

/-- `pack` as arithmetic: the fields at 128, 16 and 1, each reduced to its width (R40). -/
theorem pack_toNat (s e m : Nat) : (pack s e m).toNat = s % 2 * 128 + e % 8 * 16 + m % 16 := by
  have h1 : s &&& 1 = s % 2 := Nat.and_two_pow_sub_one_eq_mod s 1
  have h7 : e &&& 7 = e % 8 := Nat.and_two_pow_sub_one_eq_mod e 3
  have h15 : m &&& 15 = m % 16 := Nat.and_two_pow_sub_one_eq_mod m 4
  simp only [pack, BitVec.toNat_ofNat, h1, h7, h15]
  have hs : s % 2 < 2 := Nat.mod_lt _ (by norm_num)
  have he : e % 8 < 8 := Nat.mod_lt _ (by norm_num)
  have hm : m % 16 < 16 := Nat.mod_lt _ (by norm_num)
  generalize s % 2 = x at *
  generalize e % 8 = y at *
  generalize m % 16 = z at *
  interval_cases x <;> interval_cases y <;> interval_cases z <;> rfl

/-- The pattern {S, X, F} as arithmetic (44_converter.md R75). -/
theorem f32Pattern_toNat (s : BitVec 1) (x : BitVec 8) (fr : BitVec 23) :
    (f32Pattern s x fr).toNat = s.toNat * 2 ^ 31 + x.toNat * 2 ^ 23 + fr.toNat := by
  have h : (f32Pattern s x fr).toNat = ((s ++ x) ++ fr).toNat := rfl
  rw [h, append_toNat, append_toNat]
  ring

theorem f32Sign_toNat (f : Word) : (f32Sign f).toNat = f.toNat / 2 ^ 31 := by
  have := f.isLt
  simp only [f32Sign, BitVec.extractLsb'_toNat, Nat.shiftRight_eq_div_pow]
  omega

theorem f32Exp_toNat (f : Word) : (f32Exp f).toNat = f.toNat / 2 ^ 23 % 2 ^ 8 := by
  simp only [f32Exp, BitVec.extractLsb'_toNat, Nat.shiftRight_eq_div_pow]

theorem f32Frac_toNat (f : Word) : (f32Frac f).toNat = f.toNat % 2 ^ 23 := by
  simp only [f32Frac, BitVec.extractLsb'_toNat, Nat.shiftRight_eq_div_pow]
  omega

theorem isNegative_eq (v : Value) : isNegative v = decide (128 ≤ v.toNat) := by
  have h := signBit_toNat v
  have := v.isLt
  by_cases hv : 128 ≤ v.toNat
  · have h1 : signBit v = 1 := BitVec.eq_of_toNat_eq (by rw [h]; simp; omega)
    simp [isNegative, h1, hv]
  · have h0 : signBit v = 0 := BitVec.eq_of_toNat_eq (by rw [h]; simp; omega)
    simp [isNegative, h0, hv]

/-! ### Loops -/

/-- `bitlen` bounds its number from above. -/
theorem lt_two_pow_bitlen (x : Nat) : x < 2 ^ bitlen x := by
  unfold bitlen
  split
  · simp_all
  · exact Nat.lt_log2_self

/-- `bitlen` of half a positive number. -/
theorem bitlen_half {x : Nat} (h : x ≠ 0) : bitlen (x >>> 1) = bitlen x - 1 := by
  have hs : x >>> 1 = x / 2 := rfl
  rw [hs]
  by_cases h1 : x = 1
  · subst h1; decide
  · have h2 : x / 2 ≠ 0 := by omega
    have hl : x.log2 = (x / 2).log2 + 1 := by
      rw [Nat.log2_def]; simp [show 2 ≤ x by omega]
    simp only [bitlen, h, h2, if_false, hl]
    omega

/-- All an alignment loop does: the exponent up by the number of passes, the significand doubled as often. -/
theorem doubleUp_eq (n e x : Nat) : doubleUp n (e, x) = (e + n, x * 2 ^ n) := by
  induction n generalizing e x with
  | zero => simp [doubleUp]
  | succ n ih =>
    simp only [doubleUp, ih, Nat.shiftLeft_eq, pow_succ, Prod.mk.injEq]
    constructor
    · omega
    · ring

/-- What the normalizing loop can answer: the sentinel, or a pair in range. -/
theorem normalizeLoop_cases (e m : Nat) :
    normalizeLoop e m = sentinelPair ∨
      (normalizeLoop e m).1 ≤ e ∧ (normalizeLoop e m).2 ≤ Config.sigMax := by
  induction e generalizing m with
  | zero =>
    unfold normalizeLoop
    split
    · exact .inl rfl
    · exact .inr ⟨le_refl _, by omega⟩
  | succ e ih =>
    unfold normalizeLoop
    split
    · rcases ih (m >>> 1) with h | h
      · exact .inl h
      · exact .inr ⟨by omega, h.2⟩
    · exact .inr ⟨le_refl _, by omega⟩

/-- The normalizer's pair always fits the fields, so `pack` truncates nothing of it. -/
theorem normalize_fits (e m : Nat) : (normalizePair e m).1 < 8 ∧ (normalizePair e m).2 < 16 := by
  have hs : sentinelPair = (7, 0) := rfl
  unfold normalizePair
  split
  · simp [hs]
  · rename_i h
    have : e < 7 := by simpa [Config.expMax] using h
    rcases normalizeLoop_cases e m with h' | ⟨h1, h2⟩
    · simp [h', hs]
    · have : Config.sigMax = 15 := rfl
      omega

/-- A normalized and packed value as a number. -/
theorem normalizePack_toNat (s e m : Nat) :
    (normalizePack s e m).toNat = s % 2 * 128 + (normalizePair e m).1 * 16 + (normalizePair e m).2 := by
  obtain ⟨h1, h2⟩ := normalize_fits e m
  simp only [normalizePack, pack_toNat, Nat.mod_eq_of_lt h1, Nat.mod_eq_of_lt h2]

/-- Everything the underflow loop can do, run for as many passes as the exponent is below 0. -/
theorem raiseExponent_eq (n m : Nat) : raiseExponent n m (-(n : Int)) = (m / 2 ^ n, 0) := by
  induction n generalizing m with
  | zero => simp [raiseExponent]
  | succ n ih =>
    have h : -((n + 1 : Nat) : Int) < 0 := by omega
    have h' : -((n + 1 : Nat) : Int) + 1 = -(n : Int) := by omega
    simp only [raiseExponent, h, if_true, h', ih, Nat.shiftRight_eq_div_pow, pow_succ', pow_zero, mul_one,
      Nat.div_div_eq_div_mul]

end Sys2Proof.Machine
end

