-- ==== Sys2Proof/Laws/State.lean ====
section
/-! SUPPORT. One lemma per field per update of the state, and what each named operation over the ports does. -/

namespace Sys2Proof.Machine

variable (s : State) (r : Request) (x : Answer) (y : Word) (c : Status)

@[simp] theorem State.request_op : s.request.op = s.op := rfl
@[simp] theorem State.request_a : s.request.a = s.a := rfl
@[simp] theorem State.request_b : s.request.b = s.b := rfl

@[simp] theorem State.present_op : (s.present r).op = r.op := rfl
@[simp] theorem State.present_a : (s.present r).a = r.a := rfl
@[simp] theorem State.present_b : (s.present r).b = r.b := rfl
@[simp] theorem State.present_out : (s.present r).out = none := rfl
@[simp] theorem State.present_request : (s.present r).request = r := rfl

@[simp] theorem State.answer_op : (s.answer x).op = s.op := rfl
@[simp] theorem State.answer_a : (s.answer x).a = s.a := rfl
@[simp] theorem State.answer_b : (s.answer x).b = s.b := rfl
@[simp] theorem State.answer_out : (s.answer x).out = some x := rfl
@[simp] theorem State.answer_request : (s.answer x).request = s.request := rfl
@[simp] theorem State.answer_answer (x' : Answer) : (s.answer x).answer x' = s.answer x' := rfl

theorem State.finish_eq : s.finish y = s.answer { y := y, st := .ok } := rfl
theorem State.raise_eq : s.raise c = s.answer { y := 0, st := c } := rfl

/-- Presenting depends on nothing the ports held before (10_state.md R10). -/
theorem State.present_eq_present (s' : State) : s.present r = s'.present r := rfl

@[simp] theorem Answer.done_y : (Answer.done y).y = y := rfl
@[simp] theorem Answer.done_st : (Answer.done y).st = .ok := rfl
@[simp] theorem Answer.raised_y : (Answer.raised c).y = 0 := rfl
@[simp] theorem Answer.raised_st : (Answer.raised c).st = c := rfl

/-- Everything `Answer.result` can be: the result exactly when the status is OK. -/
theorem Answer.result_eq : x.result = if x.st = .ok then some x.y else none := by
  obtain ⟨y, st⟩ := x
  cases st <;> rfl

end Sys2Proof.Machine
end

