-- ==== Sys2Proof/Laws/Exec.lean ====
section
/-! SUPPORT. What one instruction and one step can do to the state: settle the outputs, and nothing else. -/

namespace Sys2Proof.Machine

/-- Everything an instruction can do: from every state it answers the same, and leaves every input port as it was
(00_scope.md R9). -/
theorem exec_answers (i : Instr) : ∃ x : Answer, ∀ s : State, exec i s = .next (s.answer x) := by
  cases i with
  | xfromf32 f =>
    cases h : exactFromF32 f with
    | some v => exact ⟨_, fun s => by simp only [exec, execXfromf32, h]; rfl⟩
    | none => exact ⟨_, fun s => by simp only [exec, execXfromf32, h]; rfl⟩
  | _ => exact ⟨_, fun _ => rfl⟩

/-- The one inversion lemma of the step: a next state is the old one with its outputs answered. -/
theorem step_inv {s t : State} (h : step s = .next t) : ∃ x : Answer, t = s.answer x := by
  obtain ⟨x, hx⟩ := exec_answers (decode s.request)
  rw [step, hx s] at h
  exact ⟨x, (Host.Outcome.next.inj h).symm⟩

theorem step_op {s t : State} (h : step s = .next t) : t.op = s.op := by
  obtain ⟨x, rfl⟩ := step_inv h; rfl

theorem step_a {s t : State} (h : step s = .next t) : t.a = s.a := by
  obtain ⟨x, rfl⟩ := step_inv h; rfl

theorem step_b {s t : State} (h : step s = .next t) : t.b = s.b := by
  obtain ⟨x, rfl⟩ := step_inv h; rfl

/-- No step faults. -/
theorem step_ne_fault (s : State) (f : Fault) : step s ≠ .fault f := nomatch f

end Sys2Proof.Machine
end

