-- ==== Sys2Proof/Laws/PerInstr.lean ====
section
/-! SUPPORT. The family CanonicalPorts: a well-formed instruction's request has every bit that its format does
not name at 0 (30_encoding.md R32, R36). One lemma per constructor. -/

namespace Sys2Proof.Laws.CanonicalPorts

/-- Cleaning the request of `i` changes nothing. -/
def Statement (i : Instr) : Prop := i.wellFormed = true → (encode i).clean = encode i

/-- Port by port. -/
theorem of_ports {i : Instr} (ha : i.portA &&& namedA i.opCode = i.portA)
    (hb : i.portB &&& namedB i.opCode = i.portB) : Statement i := fun _ => by
  simp only [encode, Request.clean, ha, hb]

/-- A zero-extended byte has nothing outside the low byte. -/
theorem zext_and_low (v : BitVec 8) : zext v &&& 0x000000FF#32 = zext v := by
  revert v; decide

/-- The codes of the reserved rows name no operand bit. -/
theorem named_of_reserved (op : OpCode) (h : 18 ≤ op.toNat) : namedA op = 0 ∧ namedB op = 0 := by
  revert h; revert op; decide

theorem zero : Statement .zero := fun _ => rfl

theorem one : Statement .one := fun _ => rfl

theorem pack (s e m : BitVec 8) : Statement (.pack s e m) := by
  have h : zext (s ++ e ++ m) &&& 0x00FFFFFF#32 = zext (s ++ e ++ m) := by
    apply BitVec.eq_of_toNat_eq
    have hx := (s ++ e ++ m).isLt
    have : (0x00FFFFFF#32).toNat = 2 ^ 24 - 1 := by decide
    rw [BitVec.toNat_and, this, Nat.and_two_pow_sub_one_eq_mod]
    simp only [zext, BitVec.toNat_setWidth]
    omega
  exact of_ports h BitVec.zero_and

theorem sbit (v : Value) : Statement (.sbit v) :=
  of_ports (zext_and_low v) BitVec.zero_and

theorem expf (v : Value) : Statement (.expf v) :=
  of_ports (zext_and_low v) BitVec.zero_and

theorem sigf (v : Value) : Statement (.sigf v) :=
  of_ports (zext_and_low v) BitVec.zero_and

theorem isneg (v : Value) : Statement (.isneg v) :=
  of_ports (zext_and_low v) BitVec.zero_and

theorem isnneg (v : Value) : Statement (.isnneg v) :=
  of_ports (zext_and_low v) BitVec.zero_and

theorem sgn (v : Value) : Statement (.sgn v) :=
  of_ports (zext_and_low v) BitVec.zero_and

theorem eq (v w : Value) : Statement (.eq v w) :=
  of_ports (zext_and_low v) (zext_and_low w)

theorem norm (e : BitVec 8) (m : BitVec 24) : Statement (.norm e m) :=
  of_ports (BitVec.and_allOnes (x := e ++ m)) BitVec.zero_and

theorem neg (v : Value) : Statement (.neg v) :=
  of_ports (zext_and_low v) BitVec.zero_and

theorem add (v w : Value) : Statement (.add v w) :=
  of_ports (zext_and_low v) (zext_and_low w)

theorem sub (v w : Value) : Statement (.sub v w) :=
  of_ports (zext_and_low v) (zext_and_low w)

theorem mul (v w : Value) : Statement (.mul v w) :=
  of_ports (zext_and_low v) (zext_and_low w)

theorem tof32 (v : Value) : Statement (.tof32 v) :=
  of_ports (zext_and_low v) BitVec.zero_and

theorem xfromf32 (f : Word) : Statement (.xfromf32 f) :=
  of_ports (BitVec.and_allOnes (x := f)) BitVec.zero_and

theorem afromf32 (f : Word) : Statement (.afromf32 f) :=
  of_ports (BitVec.and_allOnes (x := f)) BitVec.zero_and

theorem reserved1819 (op : OpCode) : Statement (.reserved1819 op) := fun h => by
  have hr : 18 ≤ op.toNat := by
    simp only [Instr.wellFormed, OpCode.inRange, Bool.and_eq_true, decide_eq_true_eq] at h
    omega
  obtain ⟨ha, hb⟩ := named_of_reserved op hr
  simp [encode, Request.clean, Instr.opCode, Instr.portA, Instr.portB]

theorem reserved2023 (op : OpCode) : Statement (.reserved2023 op) := fun h => by
  have hr : 18 ≤ op.toNat := by
    simp only [Instr.wellFormed, OpCode.inRange, Bool.and_eq_true, decide_eq_true_eq] at h
    omega
  obtain ⟨ha, hb⟩ := named_of_reserved op hr
  simp [encode, Request.clean, Instr.opCode, Instr.portA, Instr.portB]

theorem reserved2431 (op : OpCode) : Statement (.reserved2431 op) := fun h => by
  have hr : 18 ≤ op.toNat := by
    simp only [Instr.wellFormed, OpCode.inRange, Bool.and_eq_true, decide_eq_true_eq] at h
    omega
  obtain ⟨ha, hb⟩ := named_of_reserved op hr
  simp [encode, Request.clean, Instr.opCode, Instr.portA, Instr.portB]

end Sys2Proof.Laws.CanonicalPorts
end

