-- ==== Sys2Proof/Laws/RequestList.lean ====
section
/-! SUPPORT. What the operands of a request line resolve to, and what one line and a whole list can do
(30_encoding.md R39). -/

namespace Sys2Proof.Machine

variable (done : List Answer)

@[simp] theorem operandNumber_literal (n : Nat) : operandNumber done (.literal n) = .ok n := rfl

theorem operandNumber_result {k : Nat} {x : Answer} (h : done[k]? = some x) :
    operandNumber done (.result k) = .ok x.y.toNat := by simp [operandNumber, h]

/-- A name that no earlier line has is refused, by that name. -/
theorem operandNumber_notEarlier {k : Nat} (h : done.length ≤ k) :
    operandNumber done (.result k) = .error (.notEarlier k) := by simp [operandNumber, h]

/-- Operands resolve exactly when each of them does, in their order. -/
theorem operandNumbers_ok_iff (os : List ListOperand) (ns : List Nat) :
    operandNumbers done os = .ok ns ↔ List.Forall₂ (fun o n => operandNumber done o = .ok n) os ns := by
  induction os generalizing ns with
  | nil =>
    rw [List.forall₂_nil_left_iff]
    exact ⟨fun h => (Except.ok.inj h).symm, fun h => h ▸ rfl⟩
  | cons o os ih =>
    rw [List.forall₂_cons_left_iff]
    simp only [operandNumbers]
    cases ho : operandNumber done o with
    | error e => simp
    | ok n =>
      cases hos : operandNumbers done os with
      | error e => simp [← ih, hos]
      | ok ms =>
        simp only [Except.ok.injEq, ← ih, hos]
        exact ⟨fun h => ⟨n, ms, rfl, rfl, h.symm⟩, fun ⟨_, _, h₁, h₂, h⟩ => by rw [h, ← h₁, ← h₂]⟩

/-- Everything one line can do, once its operands resolve and its code has their form: present the instruction's
request and answer it. -/
theorem runLine_eq {l : ListLine} {ns : List Nat} {i : Instr} (s : State)
    (hn : operandNumbers done l.operands = .ok ns) (hi : lineInstr l.op ns = some i) :
    ∃ x : Answer, step (s.present (encode i)) = .next ((s.present (encode i)).answer x) ∧
      runLine done l s = .ok ((s.present (encode i)).answer x, x) := by
  obtain ⟨x, hx⟩ := exec_answers (decode (encode i))
  have hs : step (s.present (encode i)) = .next ((s.present (encode i)).answer x) := hx _
  exact ⟨x, hs, by simp [runLine, hn, hi, hs]⟩

theorem runLines_cons {l : ListLine} {ls : List ListLine} {s t : State} {x : Answer}
    (h : runLine done l s = .ok (t, x)) : runLines done (l :: ls) s = runLines (done ++ [x]) ls t := by
  simp [runLines, h]

/-- A code and as many numbers as its format has operands make an instruction (R32). -/
theorem lineInstr_of_operandCount {op : OpCode} {ns : List Nat} (h : operandCount op = some ns.length) :
    ∃ i, lineInstr op ns = some i := by
  unfold operandCount at h
  split at h <;> rename_i hop <;> try cases h
  all_goals simp only [Option.some.injEq] at h
  all_goals first
    | (obtain rfl := List.length_eq_zero_iff.1 h.symm; exact ⟨_, by simp only [lineInstr, hop]; rfl⟩)
    | (obtain ⟨x, rfl⟩ := List.length_eq_one_iff.1 h.symm; exact ⟨_, by simp only [lineInstr, hop]; rfl⟩)
    | (obtain ⟨x, y, rfl⟩ := List.length_eq_two.1 h.symm; exact ⟨_, by simp only [lineInstr, hop]; rfl⟩)
    | (obtain ⟨x, y, z, rfl⟩ := List.length_eq_three.1 h.symm; exact ⟨_, by simp only [lineInstr, hop]; rfl⟩)

end Sys2Proof.Machine
end

