-- ==== Sys2Proof/Tests/Slice0.lean ====
section
/-! SUPPORT. Tests. Words and expected answers are written out from the spec: 30_encoding.md R30, R32, R34, R35 for
the words, 95_test_vectors.md sections 3 and 4 and the rules' own examples for the answers. After them, a witness
for the hypotheses of each statement that has any. -/

namespace Sys2Proof.Tests

open Sys2Proof.Machine Sys2Proof.Claims Sys2Proof.Safety

/-- The ports with a request on them and nothing settled. -/
def ports (op : Nat) (a b : Word) : State := { op := BitVec.ofNat 5 op, a := a, b := b, out := none }

/-- What one step from those ports settles to: `y` and the code on `st`. -/
def ask (op : Nat) (a b : Word) : Option (Word × BitVec 2) :=
  match step (ports op a b) with
  | .next t => t.out.map fun x => (x.y, x.st.code)
  | .fault _ => none
  | .refused _ => none

/-! ### WellFormed refuses an ill-formed term of each reserved row (R35) -/

theorem test_wellFormed_refuses_1819 : (Instr.reserved1819 20).wellFormed = false := by decide
theorem test_wellFormed_refuses_1819_low : (Instr.reserved1819 17).wellFormed = false := by decide
theorem test_wellFormed_refuses_2023 : (Instr.reserved2023 24).wellFormed = false := by decide
theorem test_wellFormed_refuses_2023_low : (Instr.reserved2023 19).wellFormed = false := by decide
theorem test_wellFormed_refuses_2431 : (Instr.reserved2431 23).wellFormed = false := by decide
theorem test_wellFormed_accepts_ends : (Instr.reserved1819 18).wellFormed = true ∧
    (Instr.reserved1819 19).wellFormed = true ∧ (Instr.reserved2023 20).wellFormed = true ∧
    (Instr.reserved2023 23).wellFormed = true ∧ (Instr.reserved2431 24).wellFormed = true ∧
    (Instr.reserved2431 31).wellFormed = true := by decide

/-! ### Decoding: a word of every row; P<n> are the lists of 95_test_vectors.md section 4 -/

/-- P4 line 4. -/
theorem test_decode_zero : decodeTableWord 72 0x000000000000000000 = some (.zero) := by decide
/-- P1 line 1. -/
theorem test_decode_one : decodeTableWord 72 0x010000000000000000 = some (.one) := by decide
/-- P4 line 1. -/
theorem test_decode_pack : decodeTableWord 72 0x020000000000010305 = some (.pack 1 3 5) := by decide
/-- R34, R32. -/
theorem test_decode_sbit : decodeTableWord 72 0x0300000000000000A1 = some (.sbit 0xA1) := by decide
/-- P5 line 7. -/
theorem test_decode_expf : decodeTableWord 72 0x040000000000000050 = some (.expf 0x50) := by decide
/-- P5 line 8. -/
theorem test_decode_sigf : decodeTableWord 72 0x050000000000000050 = some (.sigf 0x50) := by decide
/-- R34, R32. -/
theorem test_decode_isneg : decodeTableWord 72 0x060000000000000080 = some (.isneg 0x80) := by decide
/-- R34, R32; ignored bits set. -/
theorem test_decode_isnneg : decodeTableWord 72 0x07FFFFFFFFFFFFFF80 = some (.isnneg 0x80) := by decide
/-- P4 line 7. -/
theorem test_decode_sgn : decodeTableWord 72 0x0800000000000000B5 = some (.sgn 0xB5) := by decide
/-- P3 line 8. -/
theorem test_decode_eq : decodeTableWord 72 0x090000001700000025 = some (.eq 0x25 0x17) := by decide
/-- P5 line 9. -/
theorem test_decode_norm : decodeTableWord 72 0x0A00000000060000E1 = some (.norm 6 225) := by decide
/-- P4 line 2. -/
theorem test_decode_neg : decodeTableWord 72 0x0B00000000000000B5 = some (.neg 0xB5) := by decide
/-- P3 line 5. -/
theorem test_decode_add : decodeTableWord 72 0x0C0000001100000023 = some (.add 0x23 0x11) := by decide
/-- P4 line 8. -/
theorem test_decode_sub : decodeTableWord 72 0x0D000000B500000000 = some (.sub 0x00 0xB5) := by decide
/-- P5 line 1. -/
theorem test_decode_mul : decodeTableWord 72 0x0E0000003100000061 = some (.mul 0x61 0x31) := by decide
/-- P1 line 3. -/
theorem test_decode_tof32 : decodeTableWord 72 0x0F0000000000000022 = some (.tof32 0x22) := by decide
/-- P2 line 1. -/
theorem test_decode_xfromf32 : decodeTableWord 72 0x10000000003E99999A = some (.xfromf32 0x3E99999A) := by decide
/-- P3 line 1. -/
theorem test_decode_afromf32 : decodeTableWord 72 0x11000000003FC00000 = some (.afromf32 0x3FC00000) := by decide
/-- R35. -/
theorem test_decode_reserved1819 : decodeTableWord 72 0x130000002100000021 = some (.reserved1819 19) := by decide
/-- R35. -/
theorem test_decode_reserved2023 : decodeTableWord 72 0x14FFFFFFFFFFFFFFFF = some (.reserved2023 20) := by decide
/-- R35. -/
theorem test_decode_reserved2431 : decodeTableWord 72 0x1F0000000000000000 = some (.reserved2431 31) := by decide

/-- A number with a bit above bit 68 is no request (R30). -/
theorem test_decode_rejects_wide : decodeWord (2 ^ 69) = .error .widerThanARequest := by rfl

/-- A table word runs as the first step after reset (R111): NEG 0xB5, P4 line 2. -/
theorem test_withFetchWord_runs : step (State.reset.withFetchWord 72 0x0B00000000000000B5) =
    .next { op := 11, a := 0xB5, b := 0, out := some { y := 0x35, st := .ok } } := by rfl

/-- R106: the reset state's outputs are ZERO's already. -/
theorem test_reset_is_settled : step State.reset = .next State.reset := by rfl

/-! ### One step of each row (95_test_vectors.md section 3) -/

/-- 3.6. -/
theorem test_zero_ignores_operands : ask 0 0xFFFFFFFF 0xFFFFFFFF = some (0x0, 0) := by rfl
/-- 3.1. -/
theorem test_one : ask 1 0x0 0x0 = some (0x21, 0) := by rfl
/-- 3.1: PACK 2, 9, 17. -/
theorem test_pack_truncates : ask 2 0x20911 0x0 = some (0x11, 0) := by rfl
/-- 3.1. -/
theorem test_pack_ignores_top_byte : ask 2 0xFF000000 0x0 = some (0x0, 0) := by rfl
/-- 3.1. -/
theorem test_sbit : ask 3 0x80 0x0 = some (0x1, 0) := by rfl
/-- 3.1. -/
theorem test_expf : ask 4 0xF0 0x0 = some (0x7, 0) := by rfl
/-- 3.1. -/
theorem test_sigf : ask 5 0x2F 0x0 = some (0xF, 0) := by rfl
/-- 3.1. -/
theorem test_isneg_of_negative_zero : ask 6 0x80 0x0 = some (0x1, 0) := by rfl
/-- 3.1. -/
theorem test_isnneg_of_negative_sentinel : ask 7 0xF0 0x0 = some (0x0, 0) := by rfl
/-- 3.1. -/
theorem test_sgn_of_negative_zero : ask 8 0x80 0x0 = some (0x0, 0) := by rfl
/-- 3.1. -/
theorem test_sgn_sign_extends_to_8_bits : ask 8 0xF0 0x0 = some (0xFF, 0) := by rfl
/-- 3.1. -/
theorem test_eq_zeros_differ : ask 9 0x0 0x80 = some (0x0, 0) := by rfl
/-- 3.1. -/
theorem test_eq_ignores_upper_bits : ask 9 0xFFFFFF21 0x21 = some (0x1, 0) := by rfl
/-- 3.2: NORM 6, 225. -/
theorem test_norm_halves : ask 10 0x60000E1 0x0 = some (0x2E, 0) := by rfl
/-- R57: NORM 4, 255. -/
theorem test_norm_last_halving_at_exponent_one : ask 10 0x40000FF 0x0 = some (0xF, 0) := by rfl
/-- 3.3. -/
theorem test_neg : ask 11 0x12345621 0x0 = some (0xA1, 0) := by rfl
/-- 3.3. -/
theorem test_add_sign_of_larger_aligned : ask 12 0x1F 0x8F = some (0x9F, 0) := by rfl
/-- 3.3. -/
theorem test_add_six_halvings : ask 12 0xF 0x6F = some (0xF, 0) := by rfl
/-- 3.3. -/
theorem test_sub_negates_second : ask 13 0x3C 0x28 = some (0xB4, 0) := by rfl
/-- 3.3. -/
theorem test_sub_keeps_negative_zero : ask 13 0x80 0x0 = some (0x80, 0) := by rfl
/-- 3.4. -/
theorem test_mul_underflow_keeps_sign : ask 14 0x1 0x81 = some (0x80, 0) := by rfl
/-- 3.4. -/
theorem test_mul_four_halvings : ask 14 0x4F 0x4F = some (0x2E, 0) := by rfl
/-- R78. -/
theorem test_tof32_greatest : ask 15 0xFF 0x0 = some (0xC3F00000, 0) := by rfl
/-- R78 b. -/
theorem test_tof32_of_negative_sentinel : ask 15 0xF0 0x0 = some (0x80000000, 0) := by rfl
/-- 3.5: 0.3. -/
theorem test_xfromf32_absent : ask 16 0x3E99999A 0x0 = some (0x0, 1) := by rfl
/-- 3.5: 17.0. -/
theorem test_xfromf32_normalizes : ask 16 0x41880000 0x0 = some (0x18, 0) := by rfl
/-- 3.5: 3.14159. -/
theorem test_afromf32_truncates : ask 17 0x40490FD0 0x0 = some (0xC, 0) := by rfl
/-- 3.5: 127.875. -/
theorem test_afromf32_forced_saturation : ask 17 0x42FFC000 0x0 = some (0x70, 0) := by rfl
/-- 3.6. -/
theorem test_reserved_18 : ask 18 0x21 0x21 = some (0x0, 2) := by rfl
/-- R35. -/
theorem test_reserved_20 : ask 20 0x0 0x0 = some (0x0, 2) := by rfl
/-- 3.6. -/
theorem test_reserved_31 : ask 31 0x55 0xAA = some (0x0, 2) := by rfl

/-- P1 of section 4: one plus one, as a float. -/
theorem test_list_P1 :
    runList [⟨1, []⟩, ⟨12, [.result 0, .result 0]⟩, ⟨15, [.result 1]⟩] State.reset =
      .ok [⟨0x21, .ok⟩, ⟨0x22, .ok⟩, ⟨0x40000000, .ok⟩] := by rfl

/-! ### Witnesses: states and operands that meet the hypotheses of each statement, at the ends of their ranges -/

/-- The hypotheses `s.op.toNat = k` of the statements about one code, all at once. -/
theorem witness_codes : ∀ k : Fin 32, (ports k.val 0x12345678 0x9ABCDEF0).op.toNat = k.val := by decide

theorem witness_StepRunsDecodedRequest :
    decodeTableWord 69 0x0C0000002100000021 = some (.add 0x21 0x21) ∧
    decode (ports 12 0x21 0x21).request = .add 0x21 0x21 := by decide

/-- Both reserved ends: 18 and 31. -/
theorem witness_ReservedCodesAnswerIllegal :
    18 ≤ (ports 18 0 0).op.toNat ∧ 18 ≤ (ports 31 0 0).op.toNat := by decide

/-- The codes next to XFROMF32's, and the first. -/
theorem witness_OnlyExactConversionAndReservedCodesAreNotOk :
    ((ports 15 0 0).op.toNat < 18 ∧ (ports 15 0 0).op.toNat ≠ 16) ∧
    ((ports 17 0 0).op.toNat < 18 ∧ (ports 17 0 0).op.toNat ≠ 16) ∧
    ((ports 0 0 0).op.toNat < 18 ∧ (ports 0 0 0).op.toNat ≠ 16) := by decide

theorem witness_UnnamedOperandBitsAreIgnored :
    (ports 12 0xFFFFFF21 0xABCDEF31).op = (ports 12 0x00000021 0x00000031).op ∧
    (ports 12 0xFFFFFF21 0xABCDEF31).a &&& namedA 12 = (ports 12 0x00000021 0x00000031).a &&& namedA 12 ∧
    (ports 12 0xFFFFFF21 0xABCDEF31).b &&& namedB 12 = (ports 12 0x00000021 0x00000031).b &&& namedB 12 := by
  decide

theorem witness_StepSettlesTheOutputs :
    step (ports 11 0x21 0) = .next (answered (ports 11 0x21 0) 0xA1) := by rfl

/-- A state with nothing settled has the invariant, and steps. -/
theorem witness_AnswersFitTheirCode :
    AnswerFits (ports 16 0x3E000000 0) ∧
    step (ports 16 0x3E000000 0) = .next (raised (ports 16 0x3E000000 0) .absent) :=
  ⟨fun r h => by simp [ports] at h, rfl⟩

theorem witness_FatalIsNeverDriven :
    step (ports 18 0 0) = .next (raised (ports 18 0 0) .illegal) ∧
    (raised (ports 18 0 0) .illegal).out = some ⟨0, .illegal⟩ := ⟨rfl, rfl⟩

theorem witness_DecodeOfEncode : (Instr.pack 0xFF 0xFF 0xFF).wellFormed = true ∧
    (Instr.reserved2023 23).wellFormed = true := by decide

theorem witness_RequestWordsArePortAssignments : 2 ^ 69 - 1 < 2 ^ 69 := by decide

theorem witness_CodeZeroSettlesToZero : (ports 0 0xFFFFFFFF 0xFFFFFFFF).op = 0 := by decide

/-- A pair in range at its ends; a zero significand, and a nonzero one that saturates; one halving, and a forced
saturation. -/
theorem witness_NormalizedPairsFit :
    (15 ≤ 15 ∧ 6 ≤ 6) ∧ (normalizePair 3 0).2 = 0 ∧ (normalizePair 7 1).2 = 0 ∧ 15 < 16 := by decide

/-- Equal signs at exponent 6 with a sum of 15; opposite signs at exponent 2, and a tie at exponent 7. -/
theorem witness_AddIsExactWithoutScaling :
    (exponentField 0x67 = exponentField 0x68 ∧ isNegative 0x67 = isNegative 0x68 ∧
      (significandField 0x67).toNat + (significandField 0x68).toNat ≤ 15 ∧
      (exponentField 0x67).toNat ≤ 6) ∧
    (exponentField 0x2F = exponentField 0xA1 ∧ isNegative 0x2F ≠ isNegative 0xA1 ∧
      (exponentField 0x2F).toNat ≤ 6) ∧
    (exponentField 0x7F = exponentField 0xFF ∧ isNegative 0x7F ≠ isNegative 0xFF ∧
      significandField 0x7F = significandField 0xFF) := by decide

/-- A tie, a larger second and a larger first operand at exponent 7. -/
theorem witness_AddSaturatesAtExponentSeven :
    (expOf (0x70 : Value).toNat = 7 ∧ alignedSig 0x70 0x90 = alignedSig 0x90 0x70) ∧
    (expOf (0xF0 : Value).toNat = 7 ∧ alignedSig 0xF0 0x21 < alignedSig 0x21 0xF0) ∧
    (expOf (0x7F : Value).toNat = 7 ∧ ¬alignedSig 0x7F 0xFE < alignedSig 0xFE 0x7F) := by decide

/-- Exponent sums 2 and 8, products of 15. -/
theorem witness_MulIsExactWithoutScaling :
    (2 ≤ (exponentField 0x1F).toNat + (exponentField 0x11).toNat ∧
      (significandField 0x1F).toNat * (significandField 0x11).toNat ≤ 15) ∧
    ((exponentField 0x45).toNat + (exponentField 0x43).toNat ≤ 8 ∧
      (significandField 0x45).toNat * (significandField 0x43).toNat ≤ 15) := by decide

/-- X = 0 and X = 254, the ends beside X = 255. -/
theorem witness_DecodeDenotesItsPattern :
    (f32Exp 0x00000001).toNat ≠ 255 ∧ (f32Exp 0x7F7FFFFF).toNat ≠ 255 := by decide

theorem witness_ReductionStripsTrailingZeros : 1 ≤ 1 ∧ 1 ≤ 2 ^ 23 := by decide

/-- ±0.0; 0.25, whose biased exponent is 0; 0.125, whose biased exponent is −1. The same for both conversions. -/
theorem witness_ConversionAnswers :
    (patSig 0x00000000 = 0 ∧ patSig 0x80000000 = 0) ∧
    (OddForm 0x3E800000 1 0 ∧ (0 : Int) ≤ 0) ∧ (OddForm 0x3E000000 1 (-1) ∧ (-1 : Int) < 0) :=
  ⟨by decide, ⟨⟨by decide, 23, by decide, by decide⟩, by decide⟩,
    ⟨⟨by decide, 23, by decide, by decide⟩, by decide⟩⟩

/-- 0.125 denotes 1/8. -/
theorem denotes_eighth : f32Denotes 0x3E000000 = some (1 / 8) := by
  have h1 : (f32Exp 0x3E000000).toNat = 124 := by decide
  have h2 : (f32Frac 0x3E000000).toNat = 0 := by decide
  have h3 : f32Sign 0x3E000000 ≠ 1 := by decide
  rw [f32Denotes, f32Magnitude, h1, h2, if_neg h3]
  norm_num

/-- An infinity is in the one class, 0.125 in the other. -/
theorem witness_AbsentExactlyOffTheQuarterGrid :
    MultipleOfQuarter 0x7F800000 ∧ ¬MultipleOfQuarter 0x3E000000 := by
  constructor
  · intro q h
    have hn : f32Denotes 0x7F800000 = none := by
      have hx : (f32Exp 0x7F800000).toNat = 255 := by decide
      rw [f32Denotes, if_pos hx]
    rw [hn] at h
    cases h
  · intro h
    obtain ⟨z, hz⟩ := h _ denotes_eighth
    have h2 : (1 : ℚ) = ((2 * z : ℤ) : ℚ) := by push_cast; linarith
    have h3 : (1 : ℤ) = 2 * z := by exact_mod_cast h2
    omega

theorem witness_ApproxExtendsExact :
    exec (.xfromf32 0x3F800000) (ports 16 0x3F800000 0) = .next (answered (ports 16 0x3F800000 0) 0x21) ∧
    (answered (ports 16 0x3F800000 0) 0x21).out = some { y := 0x21, st := .ok } := ⟨rfl, rfl⟩

theorem witness_ApproxOfSmallIsSignedZero :
    f32Denotes 0x3E000000 = some (1 / 8) ∧ |(1 / 8 : ℚ)| < 1 / 4 :=
  ⟨denotes_eighth, by rw [abs_of_pos] <;> norm_num⟩

/-- +infinity, and a negative NaN. -/
theorem witness_SpecialInputsSaturate :
    (0x7F800000 : Word).toNat / 2 ^ 23 % 256 = 255 ∧ (0xFFC00001 : Word).toNat / 2 ^ 23 % 256 = 255 := by
  decide

/-- 1.0 denotes the formula value of ONE. -/
theorem witness_ConversionOfCanonicalIsExact :
    canonical 0x21 = true ∧ f32Denotes 0x3F800000 = some (formulaValue 0x21) := by
  refine ⟨by decide, ?_⟩
  have h1 : (f32Exp 0x3F800000).toNat = 127 := by decide
  have h2 : (f32Frac 0x3F800000).toNat = 0 := by decide
  have h3 : f32Sign 0x3F800000 ≠ 1 := by decide
  have h4 : isNegative 0x21 = false := by decide
  have h5 : (significandField 0x21).toNat = 1 := by decide
  have h6 : (exponentField 0x21).toNat = 2 := by decide
  rw [f32Denotes, f32Magnitude, h1, h2, if_neg h3, formulaValue, h4, formulaMagnitude, h5, h6, Config.bias]
  norm_num

/-- −0.0 denotes the formula value of the negative zero, a canonical byte too. -/
theorem witness_ConversionOfCanonicalIsExact_zero :
    canonical 0x80 = true ∧ f32Denotes 0x80000000 = some (formulaValue 0x80) := by
  refine ⟨by decide, ?_⟩
  have h1 : (f32Exp 0x80000000).toNat = 0 := by decide
  have h2 : (f32Frac 0x80000000).toNat = 0 := by decide
  have h5 : (significandField 0x80).toNat = 0 := by decide
  rw [f32Denotes, f32Magnitude, h1, h2, formulaValue, formulaMagnitude, h5]
  norm_num

theorem witness_IntermediateRanges : (f32Decode 0x00000001).1 ≠ 0 ∧ (f32Decode 0x7F800000).1 ≠ 0 := by decide

/-- P1's list is well-formed, and its second line answers 0x22; a list may be empty. -/
theorem witness_WellFormedListsRun : listWellFormed 0 [] = true ∧
    listWellFormed 0 [⟨1, []⟩, ⟨12, [.result 0, .result 0]⟩, ⟨15, [.result 1]⟩] = true ∧
    ([⟨1, []⟩, ⟨12, [.result 0, .result 0]⟩, ⟨15, [.result 1]⟩] : List ListLine)[1]? =
      some ⟨12, [.result 0, .result 0]⟩ ∧
    ([⟨0x21, .ok⟩, ⟨0x22, .ok⟩, ⟨0x40000000, .ok⟩] : List Answer)[1]? = some ⟨0x22, .ok⟩ := by decide

/-- A first line that names itself. -/
theorem witness_FeedbackWithinARequestIsRefused :
    ListOperand.result 0 ∈ (⟨11, [.result 0]⟩ : ListLine).operands ∧ ([] : List Answer).length ≤ 0 := by decide

end Sys2Proof.Tests
end

