-- ==== Sys2Proof/Proofs/Scope.lean ====
section
/-! The scope rules (00_scope.md): every operation is a total function of its operands (R9), and its intermediate
quantities stay in their ranges (R8). First the closed forms of alignment and reduction, and the bounds they give. -/

namespace Sys2Proof.Machine

/-! ### Alignment -/

/-- Alignment brings both operands to the larger exponent and doubles the other one's significand that often
(42_adder.md R61). -/
theorem align_eq (ea ma eb mb : Nat) :
    align ea ma eb mb =
      { ea := max ea eb, xa := ma * 2 ^ (eb - ea), eb := max ea eb, xb := mb * 2 ^ (ea - eb) } := by
  have hcommon : ea + (eb - ea) = max ea eb := by omega
  have hpasses : max ea eb - eb = ea - eb := by omega
  have hreach : eb + (ea - eb) = max ea eb := by omega
  simp only [align, doubleUp_eq, hcommon, hpasses, hreach]

/-- A 4-bit significand doubled at most seven times. -/
theorem alignedSignificand_le {m k : Nat} (hm : m ≤ 15) (hk : k ≤ 7) : m * 2 ^ k ≤ 1920 :=
  calc m * 2 ^ k ≤ 15 * 2 ^ 7 := Nat.mul_le_mul hm (Nat.pow_le_pow_right (by norm_num) hk)
    _ = 1920 := by norm_num

/-- The sum stays below twice the bound of one significand, since alignment doubles at most one of the two. -/
theorem alignedSum_le {ea ma eb mb : Nat} (hea : ea ≤ 7) (hma : ma ≤ 15) (heb : eb ≤ 7) (hmb : mb ≤ 15) :
    ma * 2 ^ (eb - ea) + mb * 2 ^ (ea - eb) ≤ 1935 := by
  rcases le_total ea eb with h | h
  · have hxa := alignedSignificand_le hma (k := eb - ea) (by omega)
    rw [Nat.sub_eq_zero_of_le h, pow_zero]
    omega
  · have hxb := alignedSignificand_le hmb (k := ea - eb) (by omega)
    rw [Nat.sub_eq_zero_of_le h, pow_zero]
    omega

/-! ### The fields of a Value -/

theorem exponentField_le (v : Value) : (exponentField v).toNat ≤ 7 :=
  Nat.le_of_lt_succ (exponentField v).isLt

theorem significandField_le (v : Value) : (significandField v).toNat ≤ 15 :=
  Nat.le_of_lt_succ (significandField v).isLt

theorem productSignificand_le (v w : Value) : productSignificand v w ≤ 225 :=
  Nat.mul_le_mul (significandField_le v) (significandField_le w)

theorem productExponent_mem (v w : Value) : -2 ≤ productExponent v w ∧ productExponent v w ≤ 12 := by
  have hv := exponentField_le v
  have hw := exponentField_le w
  have hbias : Config.bias = 2 := rfl
  rw [productExponent, hbias]
  omega

/-! ### Reduction -/

/-- A number below `2 ^ n` has a `bitlen` of at most `n`. -/
theorem bitlen_le {x n : Nat} (h : x < 2 ^ n) : bitlen x ≤ n := by
  unfold bitlen
  split
  · exact Nat.zero_le n
  · next hx => exact (Nat.log2_lt hx).2 h

/-- All the reducing loop does with passes enough for a positive number: some `t` halvings, none of which loses a
bit, to an odd number, with the exponent up by `t` (44_converter.md R77). -/
theorem reduceLoop_spec {n m : Nat} (e : Int) (hm : m ≠ 0) (hn : m < 2 ^ n) :
    (reduceLoop n m e).1 % 2 = 1 ∧
      ∃ t : Nat, m = (reduceLoop n m e).1 * 2 ^ t ∧ (reduceLoop n m e).2 = e + t := by
  induction n generalizing m e with
  | zero => omega
  | succ n ih =>
    unfold reduceLoop
    split
    · next heven =>
      have hhalf : m >>> 1 = m / 2 := rfl
      obtain ⟨hodd, t, hsig, hexp⟩ := ih (m := m >>> 1) (e + 1) (by omega) (by omega)
      refine ⟨hodd, t + 1, ?_, by rw [hexp]; push_cast; ring⟩
      rw [pow_succ, ← mul_assoc, ← hsig]
      omega
    · exact ⟨by omega, 0, by simp, by simp⟩

/-- `reduce` of a positive number: the odd number it is a power of two times, that power added to the exponent. -/
theorem reduce_spec {m : Nat} (e : Int) (hm : m ≠ 0) :
    (reduce m e).1 % 2 = 1 ∧ ∃ t : Nat, m = (reduce m e).1 * 2 ^ t ∧ (reduce m e).2 = e + t :=
  reduceLoop_spec e hm (lt_two_pow_bitlen m)

/-- Reduction of an `n`-bit number never widens it, and raises the exponent by less than `n`. -/
theorem reduce_bounds {m n : Nat} (e : Int) (hm : m ≠ 0) (hn : m < 2 ^ n) :
    (reduce m e).1 < 2 ^ n ∧ e ≤ (reduce m e).2 ∧ (reduce m e).2 < e + n := by
  obtain ⟨hodd, t, hsig, hexp⟩ := reduce_spec e hm
  have hpow : 2 ^ t ≤ m := by
    rw [hsig]
    exact Nat.le_mul_of_pos_left _ (by omega)
  have ht : t < n := (Nat.pow_lt_pow_iff_right (by norm_num)).1 (lt_of_le_of_lt hpow hn)
  have hle : (reduce m e).1 ≤ m := by
    conv_rhs => rw [hsig]
    exact Nat.le_mul_of_pos_right _ (by positivity)
  omega

/-! ### The decoded pattern -/

theorem f32Decode_significand_lt (f : Word) : (f32Decode f).1 < 2 ^ 24 := by
  have := (f32Frac f).isLt
  unfold f32Decode
  split <;> dsimp only <;> omega

theorem f32Decode_exponent_mem (f : Word) : -149 ≤ (f32Decode f).2 ∧ (f32Decode f).2 ≤ 105 := by
  have := (f32Exp f).isLt
  unfold f32Decode
  split <;> dsimp only <;> omega

theorem f32Reduced_significand (f : Word) :
    (f32Reduced f).1 = (reduce (f32Decode f).1 (f32Decode f).2).1 := rfl

theorem f32Reduced_exponent (f : Word) :
    (f32Reduced f).2 = (reduce (f32Decode f).1 (f32Decode f).2).2 + 2 := rfl

end Sys2Proof.Machine

namespace Sys2Proof.Proofs

open Sys2Proof.Machine

/-- Settles O4: the answer `exec` gives to an instruction whatever the state, taken at the decoded request. -/
theorem answerIsTotalFunctionOfRequest : Obligations.AnswerIsTotalFunctionOfRequest := by
  choose answerOf hanswer using exec_answers
  exact ⟨fun r => answerOf (decode r), fun s => hanswer (decode s.request) s⟩

/-- The ranges of R8 in the adder. -/
theorem align_ranges (v w : Value) :
    let p := align (exponentField v).toNat (significandField v).toNat
      (exponentField w).toNat (significandField w).toNat
    p.xa ≤ 1920 ∧ p.xb ≤ 1920 ∧ p.xa + p.xb ≤ 1935 ∧ p.ea ≤ 7 := by
  have hev := exponentField_le v
  have hew := exponentField_le w
  have hmv := significandField_le v
  have hmw := significandField_le w
  rw [align_eq]
  exact ⟨alignedSignificand_le hmv (by omega), alignedSignificand_le hmw (by omega),
    alignedSum_le hev hmv hew hmw, max_le hev hew⟩

/-- The ranges of R8 in the converter: a 24-bit significand leaves 23 halvings at most, so the exponent stays
within 23 of the decoded one. -/
theorem f32Reduced_ranges {f : Word} (hf : (f32Decode f).1 ≠ 0) :
    -149 ≤ (reduce (f32Decode f).1 (f32Decode f).2).2 ∧
    (reduce (f32Decode f).1 (f32Decode f).2).2 ≤ 128 ∧
    -147 ≤ (f32Reduced f).2 ∧ (f32Reduced f).2 ≤ 130 ∧ bitlen (f32Reduced f).1 - 4 ≤ 20 := by
  obtain ⟨hsig, hlow, hhigh⟩ := reduce_bounds (f32Decode f).2 hf (f32Decode_significand_lt f)
  obtain ⟨hdlow, hdhigh⟩ := f32Decode_exponent_mem f
  have hlen := bitlen_le hsig
  rw [f32Reduced_exponent, f32Reduced_significand]
  omega

/-- Settles O52, from the closed forms of alignment and reduction. -/
theorem intermediateRanges : Obligations.IntermediateRanges := by
  refine ⟨fun v w => ?_, fun f => ⟨f32Decode_significand_lt f, f32Reduced_ranges⟩⟩
  obtain ⟨hxa, hxb, hsum, he⟩ := align_ranges v w
  exact ⟨hxa, hxb, hsum, he, productSignificand_le v w, productExponent_mem v w⟩

end Sys2Proof.Proofs
end

/-! The state rules (10_state.md): no request sees an earlier one (R11), and what the operations keep of the number
R14 gives a byte. First the facts about encoded operands, results on the ports, the fields of a Value, the units one
by one, and request lists. -/

namespace Sys2Proof

/-! ### Encoded operands are read back -/

theorem extractLsb'_zext (v : BitVec 8) : (zext v).extractLsb' 0 8 = v := by
  apply BitVec.eq_of_toNat_eq
  rw [BitVec.extractLsb'_toNat, zext_toNat (by norm_num), Nat.shiftRight_zero, Nat.mod_eq_of_lt v.isLt]

theorem aLow_of_portA {i : Instr} {v : BitVec 8} (h : i.portA = zext v) : (encode i).aLow = v := by
  rw [Request.aLow, encode, h, extractLsb'_zext]

theorem bLow_of_portB {i : Instr} {w : BitVec 8} (h : i.portB = zext w) : (encode i).bLow = w := by
  rw [Request.bLow, encode, h, extractLsb'_zext]

/-- The three raw bytes of format T come back out of `a` (R32). -/
theorem pack_slices (s e m : BitVec 8) :
    (encode (.pack s e m)).rawSign = s ∧ (encode (.pack s e m)).rawExp = e ∧
      (encode (.pack s e m)).aLow = m := by
  have ha : (encode (.pack s e m)).a.toNat = s.toNat * 2 ^ 16 + e.toNat * 2 ^ 8 + m.toNat :=
    portA_pack_toNat s e m
  have := s.isLt
  have := e.isLt
  have := m.isLt
  refine ⟨?_, ?_, ?_⟩ <;> apply BitVec.eq_of_toNat_eq <;>
    simp only [Request.rawSign, Request.rawExp, Request.aLow, BitVec.extractLsb'_toNat, ha,
      Nat.shiftRight_eq_div_pow] <;> omega

/-- The raw pair of format EM comes back out of `a` (R32). -/
theorem norm_slices (e : BitVec 8) (m : BitVec 24) :
    (encode (.norm e m)).normExp = e ∧ (encode (.norm e m)).normSig = m := by
  have ha : (encode (.norm e m)).a.toNat = e.toNat * 2 ^ 24 + m.toNat := portA_norm_toNat e m
  have := e.isLt
  have := m.isLt
  refine ⟨?_, ?_⟩ <;> apply BitVec.eq_of_toNat_eq <;>
    simp only [Request.normExp, Request.normSig, BitVec.extractLsb'_toNat, ha,
      Nat.shiftRight_eq_div_pow] <;> omega

/-- What an instruction that holds a reserved code encodes to decodes to that code's row (R35). -/
theorem decode_encode_of_reserved {i : Instr} (h : 18 ≤ i.opCode.toNat) :
    decode (encode i) = decodeReserved i.opCode := by
  have hop : 18 ≤ (encode i).op.toNat := h
  unfold decode
  split
  case h_19 => rfl
  all_goals omega

theorem inRange_iff {lo hi : Nat} {op : OpCode} :
    OpCode.inRange lo hi op = true ↔ lo ≤ op.toNat ∧ op.toNat ≤ hi := by
  simp only [OpCode.inRange, Bool.and_eq_true, decide_eq_true_eq]

/-- Decoding what an instruction encodes to gives it back. -/
theorem decode_encode {i : Instr} (h : i.wellFormed = true) : decode (encode i) = i := by
  cases i with
  | zero => rfl
  | one => rfl
  | pack s e m =>
    obtain ⟨hs, he, hm⟩ := pack_slices s e m
    show Instr.pack _ _ _ = _
    rw [hs, he, hm]
  | sbit v => exact congrArg Instr.sbit (aLow_of_portA rfl)
  | expf v => exact congrArg Instr.expf (aLow_of_portA rfl)
  | sigf v => exact congrArg Instr.sigf (aLow_of_portA rfl)
  | isneg v => exact congrArg Instr.isneg (aLow_of_portA rfl)
  | isnneg v => exact congrArg Instr.isnneg (aLow_of_portA rfl)
  | sgn v => exact congrArg Instr.sgn (aLow_of_portA rfl)
  | eq v w => exact congrArg₂ Instr.eq (aLow_of_portA rfl) (bLow_of_portB rfl)
  | norm e m => exact congrArg₂ Instr.norm (norm_slices e m).1 (norm_slices e m).2
  | neg v => exact congrArg Instr.neg (aLow_of_portA rfl)
  | add v w => exact congrArg₂ Instr.add (aLow_of_portA rfl) (bLow_of_portB rfl)
  | sub v w => exact congrArg₂ Instr.sub (aLow_of_portA rfl) (bLow_of_portB rfl)
  | mul v w => exact congrArg₂ Instr.mul (aLow_of_portA rfl) (bLow_of_portB rfl)
  | tof32 v => exact congrArg Instr.tof32 (aLow_of_portA rfl)
  | xfromf32 f => rfl
  | afromf32 f => rfl
  | reserved1819 op =>
    obtain ⟨hlo, hhi⟩ := inRange_iff.1 h
    have hrow : decodeReserved op = .reserved1819 op := if_pos hhi
    exact (decode_encode_of_reserved (i := .reserved1819 op) hlo).trans hrow
  | reserved2023 op =>
    obtain ⟨hlo, hhi⟩ := inRange_iff.1 h
    have hrow : decodeReserved op = .reserved2023 op := by
      rw [decodeReserved, if_neg (by omega), if_pos hhi]
    exact (decode_encode_of_reserved (i := .reserved2023 op) (le_trans (by norm_num) hlo)).trans hrow
  | reserved2431 op =>
    obtain ⟨hlo, hhi⟩ := inRange_iff.1 h
    have hrow : decodeReserved op = .reserved2431 op := by
      rw [decodeReserved, if_neg (by omega), if_neg (by omega)]
    exact (decode_encode_of_reserved (i := .reserved2431 op) (le_trans (by norm_num) hlo)).trans hrow

end Sys2Proof

namespace Sys2Proof.Machine

open Sys2Proof.Claims

/-! ### Results on the ports -/

theorem placeValue_eq (v : Value) : placeValue v = BitVec.ofNat 32 v.toNat :=
  BitVec.eq_of_toNat_eq (by simp [placeValue, zext])

/-- Completing with a Value is answering its number. -/
theorem finish_placeValue (s : State) (v : Value) : s.finish (placeValue v) = answered s v.toNat := by
  rw [placeValue_eq]; rfl

theorem exec_add (v w : Value) (s : State) :
    exec (.add v w) s = .next (answered s (addValue v w).toNat) :=
  congrArg _ (finish_placeValue s _)

theorem exec_mul (v w : Value) (s : State) :
    exec (.mul v w) s = .next (answered s (multiplyValue v w).toNat) :=
  congrArg _ (finish_placeValue s _)

/-- Two Values on `y` look the same only if they are. -/
theorem next_answered_inj {s : State} {v w : Value} :
    (Host.Outcome.next (answered s v.toNat) : Host.Outcome State Fault Refusal) =
      .next (answered s w.toNat) ↔ v = w := by
  constructor
  · intro h
    injection h with hstate
    have hy : BitVec.ofNat 32 v.toNat = BitVec.ofNat 32 w.toNat := by
      simpa [answered] using hstate
    have := congrArg BitVec.toNat hy
    simp only [BitVec.toNat_ofNat] at this
    have := v.isLt
    have := w.isLt
    exact BitVec.eq_of_toNat_eq (by omega)
  · rintro rfl; rfl

/-! ### The number a Value stands for -/

theorem sgnOf_toNat (v : Value) : sgnOf v.toNat = (signBit v).toNat := (signBit_toNat v).symm

theorem expOf_toNat (v : Value) : expOf v.toNat = (exponentField v).toNat := (exponentField_toNat v).symm

theorem sigOf_toNat (v : Value) : sigOf v.toNat = (significandField v).toNat := (significandField_toNat v).symm

/-- A sign bit is the number 1 for a negative Value and 0 for another. -/
theorem signBit_toNat_eq_isNegative (v : Value) : (signBit v).toNat = (isNegative v).toNat := by
  have hbit : ∀ x : BitVec 1, x.toNat = (x == 1).toNat := by decide
  exact hbit (signBit v)

theorem formulaValue_eq (v : Value) :
    formulaValue v = (-1) ^ (signBit v).toNat * formulaMagnitude v := by
  rw [signBit_toNat_eq_isNegative, formulaValue]
  cases isNegative v <;> simp

/-- A Value is its three fields (R12). -/
theorem toNat_eq_fields (v : Value) :
    v.toNat = (signBit v).toNat * 128 + (exponentField v).toNat * 16 + (significandField v).toNat := by
  rw [signBit_toNat, exponentField_toNat, significandField_toNat]
  omega

theorem normalizePair_of_fits {e m : Nat} (he : e ≤ 6) (hm : m ≤ 15) : normalizePair e m = (e, m) := by
  have hexp : ¬ e ≥ Config.expMax := by simp only [Config.expMax]; omega
  have hsig : ¬ m > Config.sigMax := by simp only [Config.sigMax]; omega
  rw [normalizePair, if_neg hexp]
  cases e with
  | zero => rw [normalizeLoop, if_neg hsig]
  | succ e => rw [normalizeLoop, if_neg hsig]

theorem normalizePack_toNat_of_fits {s e m : Nat} (hs : s ≤ 1) (he : e ≤ 6) (hm : m ≤ 15) :
    (normalizePack s e m).toNat = s * 128 + e * 16 + m := by
  rw [normalizePack_toNat, normalizePair_of_fits he hm, Nat.mod_eq_of_lt (by omega)]

/-- A triple that needs no normalization is packed without loss (R14). -/
theorem formulaValue_normalizePack {s e m : Nat} (hs : s ≤ 1) (he : e ≤ 6) (hm : m ≤ 15) :
    formulaValue (normalizePack s e m) = (-1) ^ s * (m * (2 : ℚ) ^ ((e : ℤ) - 2)) := by
  have hn := normalizePack_toNat_of_fits hs he hm
  have hsign : (signBit (normalizePack s e m)).toNat = s := by rw [signBit_toNat, hn]; omega
  have hexp : (exponentField (normalizePack s e m)).toNat = e := by rw [exponentField_toNat, hn]; omega
  have hsig : (significandField (normalizePack s e m)).toNat = m := by
    rw [significandField_toNat, hn]; omega
  rw [formulaValue_eq, formulaMagnitude, hsign, hexp, hsig]
  rfl

theorem signBit_toNat_le (v : Value) : (signBit v).toNat ≤ 1 :=
  Nat.le_of_lt_succ (signBit v).isLt

/-- Normalizing and packing a Value's own fields gives it back, unless the normalizer's first test saturates it:
that loses a nonzero significand at exponent 7, and keeps the sentinels. -/
theorem normalizePack_fields_eq_iff (v : Value) :
    normalizePack (signBit v).toNat (exponentField v).toNat (significandField v).toNat = v ↔
      ¬((exponentField v).toNat = 7 ∧ (significandField v).toNat ≠ 0) := by
  have hs := signBit_toNat_le v
  have hfields := toNat_eq_fields v
  rw [← BitVec.toNat_inj]
  rcases Nat.lt_or_eq_of_le (exponentField_le v) with he | he
  · rw [normalizePack_toNat_of_fits hs (by omega) (significandField_le v)]
    omega
  · have hsaturated : normalizePair (exponentField v).toNat (significandField v).toNat = (7, 0) := by
      rw [he]; rfl
    rw [normalizePack_toNat, hsaturated, Nat.mod_eq_of_lt (by omega)]
    omega

/-! ### The adder -/

/-- At equal exponents alignment changes nothing, and the sign arms see the operands' own fields. -/
theorem addValue_of_equal_exponents {v w : Value} (h : exponentField v = exponentField w) :
    addValue v w = combine (isNegative v) (isNegative w) (exponentField w).toNat
      (significandField v).toNat (significandField w).toNat := by
  simp only [addValue, align_eq, h, Nat.sub_self, pow_zero, mul_one, max_self]

/-- An opposite-sign arm that needs no normalization, or that ties, subtracts exactly (R62). -/
theorem formulaValue_cancel {n e x y : Nat} (hn : n ≤ 1) (hx : x ≤ 15) (hy : y ≤ 15) (he : e ≤ 6 ∨ x = y) :
    formulaValue (cancel n e x y) = (-1) ^ n * ((x - y) * (2 : ℚ) ^ ((e : ℤ) - 2)) := by
  unfold cancel
  split
  · next htie =>
    have hzero : formulaValue zeroValue = 0 := by
      have hsig : (significandField zeroValue).toNat = 0 := by decide
      rw [formulaValue_eq, formulaMagnitude, hsig]
      simp
    rw [hzero, htie]
    simp
  · split
    · next hgt =>
      rw [formulaValue_normalizePack hn (by omega) (by omega), Nat.cast_sub hgt.le]
    · next hne hle =>
      rw [formulaValue_normalizePack (by omega) (by omega) (by omega), Nat.cast_sub (by omega)]
      interval_cases n <;> simp <;> ring

/-- The four sign arms are two, each at the first operand's sign (R62). -/
theorem combine_eq (na nb : Bool) (e x y : Nat) :
    combine na nb e x y =
      if na = nb then normalizePack na.toNat e (x + y) else cancel na.toNat e x y := by
  cases na <;> cases nb <;> rfl

/-- Each sign arm is the exact signed sum where it need not normalize (R67 a), or where it ties (R62). -/
theorem formulaValue_combine {na nb : Bool} {e x y : Nat} (hx : x ≤ 15) (hy : y ≤ 15)
    (hsum : na = nb → x + y ≤ 15) (he : e ≤ 6 ∨ na ≠ nb ∧ x = y) :
    formulaValue (combine na nb e x y) =
      (-1) ^ na.toNat * (x * (2 : ℚ) ^ ((e : ℤ) - 2)) + (-1) ^ nb.toNat * (y * (2 : ℚ) ^ ((e : ℤ) - 2)) := by
  rw [combine_eq]
  split
  · next heq =>
    have he' : e ≤ 6 := he.resolve_right fun h => h.1 heq
    rw [formulaValue_normalizePack (Bool.toNat_le na) he' (hsum heq), heq]
    push_cast
    ring
  · next hne =>
    have hsign : (-1 : ℚ) ^ nb.toNat = -(-1) ^ na.toNat := by
      rw [Bool.eq_not.2 (Ne.symm hne)]
      cases na <;> simp
    rw [formulaValue_cancel (Bool.toNat_le na) hx hy (he.imp_right And.right), hsign]
    ring

/-- Adding to the byte 0x00: a negative byte of significand 0 ties with it, every other is normalized as it is. -/
theorem addValue_zero (v : Value) :
    addValue 0x00 v =
      if (signBit v).toNat = 1 ∧ (significandField v).toNat = 0 then zeroValue
      else normalizePack (signBit v).toNat (exponentField v).toNat (significandField v).toNat := by
  have hneg : isNegative 0x00 = false := by decide
  have hexp : (exponentField 0x00).toNat = 0 := by decide
  have hsig : (significandField 0x00).toNat = 0 := by decide
  rw [signBit_toNat_eq_isNegative]
  simp only [addValue, align_eq, hneg, hexp, hsig, Nat.zero_sub, Nat.zero_max, Nat.zero_mul, pow_zero, mul_one]
  cases isNegative v
  case false => simp [combine]
  case true =>
    by_cases h : (significandField v).toNat = 0
    · simp [combine, cancel, h]
    · simp [combine, cancel, h, Ne.symm h]

/-! ### The multiplier -/

theorem multiplyValue_of_two_le {v w : Value} (h : 2 ≤ (exponentField v).toNat + (exponentField w).toNat) :
    multiplyValue v w = normalizePack (productSign v w)
      ((exponentField v).toNat + (exponentField w).toNat - 2) (productSignificand v w) := by
  have hbias : Config.bias = 2 := rfl
  have hexp : productExponent v w = ((exponentField v).toNat + (exponentField w).toNat - 2 : Nat) := by
    rw [productExponent, hbias]; omega
  rw [multiplyValue, hexp, if_neg (by omega), Int.toNat_natCast]

theorem productSign_le (v w : Value) : productSign v w ≤ 1 :=
  Nat.le_of_lt_succ (signBit v ^^^ signBit w).isLt

/-- The XOR of the sign bits is the sign of the product. -/
theorem neg_one_pow_productSign (v w : Value) :
    (-1 : ℚ) ^ productSign v w = (-1) ^ (signBit v).toNat * (-1) ^ (signBit w).toNat := by
  have hxor : ∀ x y : BitVec 1, (x ^^^ y).toNat = (x.toNat + y.toNat) % 2 := by decide
  rw [productSign, hxor, ← neg_one_pow_eq_pow_mod_two, pow_add]

/-- Multiplying by the byte 0x21 normalizes the other operand's own fields. -/
theorem multiplyValue_one (v : Value) :
    multiplyValue 0x21 v =
      normalizePack (signBit v).toNat (exponentField v).toNat (significandField v).toNat := by
  have hsign : signBit 0x21 = 0 := by decide
  have hexp : (exponentField 0x21).toNat = 2 := by decide
  have hsig : (significandField 0x21).toNat = 1 := by decide
  rw [multiplyValue_of_two_le (by omega), productSign, productSignificand, hsign, hexp, hsig]
  simp

/-! ### The converter -/

/-- A positive number lies between the power of two of its leading one and the next. -/
theorem leadingOne_bounds {m : Nat} (h : m ≠ 0) : 2 ^ (bitlen m - 1) ≤ m ∧ m < 2 ^ (bitlen m - 1 + 1) := by
  rw [bitlen, if_neg h, Nat.add_sub_cancel]
  exact ⟨Nat.log2_self_le h, Nat.lt_log2_self⟩

@[simp] theorem f32Sign_f32Pattern (s : BitVec 1) (x : BitVec 8) (fr : BitVec 23) :
    f32Sign (f32Pattern s x fr) = s := by
  apply BitVec.eq_of_toNat_eq
  rw [f32Sign_toNat, f32Pattern_toNat]
  omega

@[simp] theorem f32Exp_f32Pattern (s : BitVec 1) (x : BitVec 8) (fr : BitVec 23) :
    f32Exp (f32Pattern s x fr) = x := by
  apply BitVec.eq_of_toNat_eq
  rw [f32Exp_toNat, f32Pattern_toNat]
  omega

@[simp] theorem f32Frac_f32Pattern (s : BitVec 1) (x : BitVec 8) (fr : BitVec 23) :
    f32Frac (f32Pattern s x fr) = fr := by
  apply BitVec.eq_of_toNat_eq
  rw [f32Frac_toNat, f32Pattern_toNat]
  omega

/-- A pattern with X ≠ 255 denotes its magnitude with its sign (R75). -/
theorem f32Denotes_eq {f : Word} (h : (f32Exp f).toNat ≠ 255) :
    f32Denotes f = some ((-1) ^ (f32Sign f).toNat * f32Magnitude f) := by
  have hsign : f32Sign f = 0 ∨ f32Sign f = 1 := by
    have hbit : ∀ x : BitVec 1, x = 0 ∨ x = 1 := by decide
    exact hbit _
  rw [f32Denotes, if_neg h]
  rcases hsign with hs | hs <;> simp [hs]

/-- A significand whose leading one stands at bit `p`, as R78 assembles it: the fraction fits its 23 bits, and with
the hidden one it is the significand shifted up to bit 23. -/
theorem fraction_of_leadingOne {m p : Nat} (hp : p ≤ 23) (hlow : 2 ^ p ≤ m) (hhigh : m < 2 ^ (p + 1)) :
    (m - 2 ^ p) <<< (23 - p) < 2 ^ 23 ∧ 2 ^ 23 + (m - 2 ^ p) <<< (23 - p) = m * 2 ^ (23 - p) := by
  have hhidden : 2 ^ p * 2 ^ (23 - p) = 2 ^ 23 := by rw [← pow_add, Nat.add_sub_cancel' hp]
  have hge : 2 ^ p * 2 ^ (23 - p) ≤ m * 2 ^ (23 - p) := Nat.mul_le_mul_right _ hlow
  have hlt : m * 2 ^ (23 - p) < 2 ^ p * 2 ^ (23 - p) * 2 :=
    calc m * 2 ^ (23 - p) < 2 ^ (p + 1) * 2 ^ (23 - p) := Nat.mul_lt_mul_of_pos_right hhigh (by positivity)
      _ = 2 ^ p * 2 ^ (23 - p) * 2 := by ring
  rw [Nat.shiftLeft_eq, Nat.sub_mul]
  omega

/-- TOF32's pattern keeps the sign bit (R78). -/
theorem f32Sign_toF32 (v : Value) : f32Sign (toF32 v) = signBit v := by
  unfold toF32
  dsimp only
  split <;> exact f32Sign_f32Pattern ..

/-- TOF32's pattern is never an infinity or a NaN, and has the byte's own magnitude (R78). -/
theorem toF32_magnitude (v : Value) :
    (f32Exp (toF32 v)).toNat ≠ 255 ∧ f32Magnitude (toF32 v) = formulaMagnitude v := by
  have he := exponentField_le v
  have hm := significandField_le v
  unfold toF32 formulaMagnitude
  generalize (exponentField v).toNat = e at *
  generalize (significandField v).toNat = m at *
  dsimp only
  split
  · next hzero => simp [f32Magnitude, hzero]
  · next hpos =>
    have hp : bitlen m - 1 ≤ 3 := by
      have := bitlen_le (x := m) (n := 4) (by omega)
      omega
    obtain ⟨hlow, hhigh⟩ := leadingOne_bounds hpos
    generalize bitlen m - 1 = p at *
    obtain ⟨hfit, hlead⟩ := fraction_of_leadingOne (by omega) hlow hhigh
    have hX : (BitVec.ofNat 8 (125 + e + p)).toNat = 125 + e + p := by
      rw [BitVec.toNat_ofNat]; omega
    have hF : (BitVec.ofNat 23 ((m - 2 ^ p) <<< (23 - p))).toNat = (m - 2 ^ p) <<< (23 - p) := by
      rw [BitVec.toNat_ofNat, Nat.mod_eq_of_lt hfit]
    rw [f32Magnitude, f32Exp_f32Pattern, f32Frac_f32Pattern, hX, hF, if_neg (by omega), hlead]
    refine ⟨by omega, ?_⟩
    have hpow : (2 : ℚ) ^ (23 - p) * 2 ^ (((125 + e + p : ℕ) : ℤ) - 150) = 2 ^ ((e : ℤ) - Config.bias) := by
      rw [← zpow_natCast, ← zpow_add₀ two_ne_zero, Nat.cast_sub (by omega), Config.bias]
      push_cast
      ring_nf
    rw [← hpow]
    push_cast
    ring

/-! ### Request lists -/

/-- Everything a line's instruction can be: a well-formed one of the line's code, with the line's numbers reduced to
the widths of its operands (R32, R39). -/
theorem lineInstr_spec {op : OpCode} {ns : List Nat} {i : Instr} (h : lineInstr op ns = some i) :
    i.wellFormed = true ∧ i.opCode = op ∧
      operandsOf i = List.zipWith (fun n width => n % 2 ^ width) ns (operandWidths op) := by
  unfold lineInstr at h
  split at h
  case h_19 => cases h
  all_goals
    next hop =>
      cases h
      exact ⟨rfl, BitVec.eq_of_toNat_eq hop.symm, by simp [operandsOf, operandWidths, hop]⟩

/-- A number an operand resolves to is what the operand means. -/
theorem operandNumber_ok_iff {done : List Answer} {o : ListOperand} {n : Nat} :
    operandNumber done o = .ok n ↔ operandMeans done o n := by
  cases o with
  | literal k => simp [operandMeans, eq_comm]
  | result k =>
    cases h : done[k]? with
    | none => simp [operandNumber, operandMeans, h]
    | some x => simp [operandNumber, operandMeans, h, eq_comm]

/-- An operand that refers to earlier lines only resolves. -/
theorem operandNumber_of_refersBefore {done : List Answer} {o : ListOperand}
    (h : o.refersBefore done.length = true) : ∃ n, operandNumber done o = .ok n := by
  cases o with
  | literal k => exact ⟨k, rfl⟩
  | result k =>
    have hk : k < done.length := by simpa [ListOperand.refersBefore] using h
    exact ⟨_, operandNumber_result done (List.getElem?_eq_getElem hk)⟩

theorem operandNumbers_of_refersBefore {done : List Answer} {os : List ListOperand}
    (h : os.all (ListOperand.refersBefore done.length) = true) :
    ∃ ns, operandNumbers done os = .ok ns := by
  induction os with
  | nil => exact ⟨[], rfl⟩
  | cons o os ih =>
    rw [List.all_cons, Bool.and_eq_true] at h
    obtain ⟨n, hn⟩ := operandNumber_of_refersBefore h.1
    obtain ⟨ns, hns⟩ := ih h.2
    exact ⟨n :: ns, by simp only [operandNumbers, hn, hns]⟩

/-- `x` is what the block answers to the line `l`, its names standing for the answers `done` of the lines before:
what O53 says of each line. -/
def LineAnswered (done : List Answer) (l : ListLine) (x : Answer) : Prop :=
  ∃ (ns : List Nat) (i : Instr),
    List.Forall₂ (operandMeans done) l.operands ns ∧
    lineInstr l.op ns = some i ∧ i.opCode = l.op ∧
    operandsOf i = List.zipWith (fun n width => n % 2 ^ width) ns (operandWidths l.op) ∧
    ∀ s : State, exec i s = .next { s with out := some x }

/-- A line of its format that refers to earlier lines only is answered, and the same from every state. -/
theorem runLine_answers {done : List Answer} {l : ListLine}
    (hcount : operandCount l.op = some l.operands.length)
    (hbefore : l.operands.all (ListOperand.refersBefore done.length) = true) :
    ∃ x, LineAnswered done l x ∧ ∀ s, ∃ t, runLine done l s = .ok (t, x) := by
  obtain ⟨ns, hns⟩ := operandNumbers_of_refersBefore hbefore
  have hmeans : List.Forall₂ (operandMeans done) l.operands ns :=
    ((operandNumbers_ok_iff done _ _).1 hns).imp fun _ _ => operandNumber_ok_iff.1
  obtain ⟨i, hi⟩ := lineInstr_of_operandCount (hmeans.length_eq ▸ hcount)
  obtain ⟨hwf, hcode, hoperands⟩ := lineInstr_spec hi
  obtain ⟨x, hx⟩ := exec_answers i
  refine ⟨x, ⟨ns, i, hmeans, hi, hcode, hoperands, hx⟩, fun s => ⟨(s.present (encode i)).answer x, ?_⟩⟩
  have hstep : step (s.present (encode i)) = .next ((s.present (encode i)).answer x) := by
    rw [step, State.present_request, decode_encode hwf, hx]
  simp [runLine, hns, hi, hstep]

/-- The lines of a well-formed list, run after the answers `done`, add one answer a line, each that of its line
after all the answers before it. -/
theorem runLines_answers {done : List Answer} {ls : List ListLine}
    (hwf : listWellFormed done.length ls = true) :
    ∃ xs : List Answer, xs.length = ls.length ∧ (∀ s, runLines done ls s = .ok (done ++ xs)) ∧
      ∀ (k : Nat) (l : ListLine) (x : Answer), ls[k]? = some l → xs[k]? = some x →
        LineAnswered (done ++ xs.take k) l x := by
  induction ls generalizing done with
  | nil => exact ⟨[], rfl, fun s => by simp [runLines], fun k l x hl => by simp at hl⟩
  | cons l ls ih =>
    simp only [listWellFormed, Bool.and_eq_true, beq_iff_eq] at hwf
    obtain ⟨⟨hcount, hbefore⟩, hrest⟩ := hwf
    obtain ⟨x, hline, hrun⟩ := runLine_answers hcount hbefore
    obtain ⟨xs, hlength, hruns, hlines⟩ := ih (done := done ++ [x]) (by simpa using hrest)
    refine ⟨x :: xs, congrArg (· + 1) hlength, fun s => ?_, fun k l' x' hl hx => ?_⟩
    · obtain ⟨t, ht⟩ := hrun s
      rw [runLines_cons done ht, hruns, List.append_assoc]
      rfl
    · cases k with
      | zero =>
        cases hl
        cases hx
        simpa using hline
      | succ k => simpa using hlines k l' x' hl hx

end Sys2Proof.Machine

namespace Sys2Proof.Proofs

open Sys2Proof.Machine Sys2Proof.Claims

/-- Settles O6: O4's function of the request is all that is left on the outputs. -/
theorem earlierRequestsAreUnobservable : Obligations.EarlierRequestsAreUnobservable := by
  obtain ⟨f, hstep⟩ := answerIsTotalFunctionOfRequest
  have hdriven : ∀ (s : State) (r : Request),
      step (driven s r) = .next { op := r.op, a := r.a, b := r.b, out := some (f r) } :=
    fun s r => hstep (driven s r)
  exact ⟨f, fun s r₁ r₂ => ⟨_, hdriven s r₁, rfl, hdriven _ r₂⟩⟩

/-- Settles O33: alignment does nothing, and each sign arm of R62 is exact where it need not normalize. -/
theorem addIsExactWithoutScaling : Obligations.AddIsExactWithoutScaling := by
  intro v w s hexp hsum hrange
  refine ⟨addValue v w, exec_add v w s, ?_⟩
  have hrange' : (exponentField w).toNat ≤ 6 ∨ isNegative v ≠ isNegative w ∧
      (significandField v).toNat = (significandField w).toNat := by
    rwa [← hexp, BitVec.toNat_inj]
  rw [addValue_of_equal_exponents hexp,
    formulaValue_combine (significandField_le v) (significandField_le w) hsum hrange']
  simp only [formulaValue_eq, formulaMagnitude, signBit_toNat_eq_isNegative, hexp]
  rfl

/-- Settles O37: the exponents add, less BIAS, and the significands multiply. -/
theorem mulIsExactWithoutScaling : Obligations.MulIsExactWithoutScaling := by
  intro v w s hlow hhigh hsig
  refine ⟨multiplyValue v w, exec_mul v w s, ?_⟩
  have hfits : productSignificand v w ≤ 15 := hsig
  have hpow : (2 : ℚ) ^ ((((exponentField v).toNat + (exponentField w).toNat - 2 : ℕ) : ℤ) - 2) =
      2 ^ (((exponentField v).toNat : ℤ) - 2) * 2 ^ (((exponentField w).toNat : ℤ) - 2) := by
    rw [← zpow_add₀ two_ne_zero, Nat.cast_sub hlow]
    push_cast
    ring_nf
  rw [multiplyValue_of_two_le hlow, formulaValue_normalizePack (productSign_le v w) (by omega) hfits, hpow,
    neg_one_pow_productSign, productSignificand, formulaValue_eq v, formulaValue_eq w, formulaMagnitude,
    formulaMagnitude]
  simp only [Config.bias]
  push_cast
  ring

/-- Settles O38: either constant leaves the other operand's fields to one normalization, except where 0x00 ties
with a negative byte of significand 0. -/
theorem identitiesFailExactlyWhereListed : Obligations.IdentitiesFailExactlyWhereListed := by
  intro v s
  rw [exec_add, exec_mul, next_answered_inj, next_answered_inj, expOf_toNat, sigOf_toNat, sgnOf_toNat,
    multiplyValue_one, addValue_zero]
  refine ⟨?_, normalizePack_fields_eq_iff v⟩
  split
  · next htie =>
    have hne : zeroValue ≠ v := by
      rintro rfl
      exact absurd htie.1 (by decide)
    exact iff_of_false hne fun h => h.2 htie
  · next htie => rw [normalizePack_fields_eq_iff, and_iff_left htie]

/-- Settles O40: the pattern has the byte's sign bit and its magnitude. -/
theorem tof32DenotesTheFormulaValue : Obligations.Tof32DenotesTheFormulaValue := by
  intro v s
  obtain ⟨hfinite, hmagnitude⟩ := toF32_magnitude v
  refine ⟨toF32 v, rfl, ?_, ?_⟩
  · rw [f32Denotes_eq hfinite, f32Sign_toF32, hmagnitude, formulaValue_eq]
  · rw [patSign, ← f32Sign_toNat, f32Sign_toF32, sgnOf_toNat]

/-- Settles O53, by induction on the lines with the answers so far in hand, which are none at the start. -/
theorem wellFormedListsRun : Obligations.WellFormedListsRun := by
  intro ls hwf
  obtain ⟨xs, hlength, hrun, hlines⟩ := runLines_answers (done := []) hwf
  exact ⟨xs, hlength, hrun, hlines⟩

end Sys2Proof.Proofs

/-! The memory rules (20_memory.md): nothing is stored between requests (R20), so evaluating a request again changes
nothing (R23). First the fact that a state's answer is its request's. -/

namespace Sys2Proof.Machine

/-- Whatever else the ports hold, the same request settles the outputs to the same answer
(70_reset_and_hazards.md R105). -/
theorem step_answer_of_request_eq {s s' : State} {x : Answer} (h : step s = .next (s.answer x))
    (hrequest : s'.request = s.request) : step s' = .next (s'.answer x) := by
  obtain ⟨x', hexec⟩ := exec_answers (decode s.request)
  have hstate : s.answer x' = s.answer x := Host.Outcome.next.inj ((hexec s).symm.trans h)
  have hanswer : x' = x := by simpa using congrArg State.out hstate
  rw [step, hrequest, hexec, hanswer]

end Sys2Proof.Machine

namespace Sys2Proof.Proofs

open Sys2Proof.Machine Sys2Proof.Claims

/-- Settles O5: the state after a step, and that state with the request presented again, hold the request just
evaluated, so they get the answer already there. -/
theorem stepSettlesTheOutputs : Obligations.StepSettlesTheOutputs := by
  intro s t hstep
  obtain ⟨x, rfl⟩ := step_inv hstep
  have hsettled : step (s.answer x) = .next ((s.answer x).answer x) :=
    step_answer_of_request_eq hstep (s.answer_request x)
  have hpresented : step ((s.answer x).present s.request) = .next (((s.answer x).present s.request).answer x) :=
    step_answer_of_request_eq hstep (State.present_request _ _)
  exact ⟨hsettled, hpresented⟩

end Sys2Proof.Proofs

/-! The encoding rules (30_encoding.md): a request as one number (R30), its row and operand slices (R32, R34), the bits
its format does not name (R36), and the field its result is placed in (R33). First the word form and the decoder, then
the answers an instruction's code allows, and request lines that feed back. -/

namespace Sys2Proof

/-! ### A request as one number (R30) -/

/-- `REQ = {op, b, a}` as arithmetic. -/
theorem word_eq (r : Request) :
    r.word = r.op.toNat * 2 ^ 64 + r.b.toNat * 2 ^ 32 + r.a.toNat := by
  rw [Request.word, append_toNat, append_toNat]
  ring

theorem word_lt (r : Request) : r.word < 2 ^ 69 := (r.op ++ r.b ++ r.a).isLt

theorem requestOfWord_op_toNat (w : Nat) : (requestOfWord w).op.toNat = w / 2 ^ 64 % 2 ^ 5 := by
  rw [requestOfWord, BitVec.toNat_ofNat, Nat.shiftRight_eq_div_pow]

theorem requestOfWord_a_toNat (w : Nat) : (requestOfWord w).a.toNat = w % 2 ^ 32 := by
  rw [requestOfWord, BitVec.toNat_ofNat]

theorem requestOfWord_b_toNat (w : Nat) : (requestOfWord w).b.toNat = w / 2 ^ 32 % 2 ^ 32 := by
  rw [requestOfWord, BitVec.toNat_ofNat, Nat.shiftRight_eq_div_pow]

/-- Requests with the same numbers on their ports are the same. -/
theorem Request.ext_toNat {r r' : Request} (hop : r.op.toNat = r'.op.toNat) (ha : r.a.toNat = r'.a.toNat)
    (hb : r.b.toNat = r'.b.toNat) : r = r' := by
  obtain ⟨op, a, b⟩ := r
  obtain ⟨op', a', b'⟩ := r'
  obtain rfl : op = op' := BitVec.eq_of_toNat_eq hop
  obtain rfl : a = a' := BitVec.eq_of_toNat_eq ha
  obtain rfl : b = b' := BitVec.eq_of_toNat_eq hb
  rfl

theorem requestOfWord_word (r : Request) : requestOfWord r.word = r := by
  have := r.op.isLt
  have := r.a.isLt
  have := r.b.isLt
  apply Request.ext_toNat
  · rw [requestOfWord_op_toNat, word_eq]; omega
  · rw [requestOfWord_a_toNat, word_eq]; omega
  · rw [requestOfWord_b_toNat, word_eq]; omega

theorem word_requestOfWord {w : Nat} (h : w < 2 ^ 69) : (requestOfWord w).word = w := by
  rw [word_eq, requestOfWord_op_toNat, requestOfWord_a_toNat, requestOfWord_b_toNat]
  omega

/-- Everything a table word can decode to: the instruction of its request, if it is no wider than one. -/
theorem decodeTableWord_eq_some_iff {nbits w : Nat} {i : Instr} :
    decodeTableWord nbits w = some i ↔
      w % 2 ^ nbits < 2 ^ 69 ∧ decode (requestOfWord (w % 2 ^ nbits)) = i := by
  by_cases h : w % 2 ^ nbits < 2 ^ 69
  · rw [decodeTableWord, decodeWord, if_pos h]
    exact ⟨fun hi => ⟨h, Option.some.inj hi⟩, fun hi => congrArg some hi.2⟩
  · rw [decodeTableWord, decodeWord, if_neg h]
    exact iff_of_false nofun fun hi => h hi.1

/-- A request's own word, as a table word of 72 bits, decodes as the request. -/
theorem decodeTableWord_word (r : Request) : decodeTableWord 72 r.word = some (decode r) := by
  have hlt := word_lt r
  have hmod : r.word % 2 ^ 72 = r.word := Nat.mod_eq_of_lt (by omega)
  rw [decodeTableWord_eq_some_iff, hmod, requestOfWord_word]
  exact ⟨hlt, rfl⟩

/-! ### The operand slices as numbers (R32) -/

theorem extractLsb'_eq_ofNat_div {n : Nat} (x : BitVec n) (lo width : Nat) :
    x.extractLsb' lo width = BitVec.ofNat width (x.toNat / 2 ^ lo) := by
  rw [BitVec.extractLsb', Nat.shiftRight_eq_div_pow]

theorem aLow_eq (r : Request) : r.aLow = BitVec.ofNat 8 r.a.toNat := rfl

theorem bLow_eq (r : Request) : r.bLow = BitVec.ofNat 8 r.b.toNat := rfl

theorem normSig_eq (r : Request) : r.normSig = BitVec.ofNat 24 r.a.toNat := rfl

theorem rawExp_eq (r : Request) : r.rawExp = BitVec.ofNat 8 (r.a.toNat / 2 ^ 8) :=
  extractLsb'_eq_ofNat_div ..

theorem rawSign_eq (r : Request) : r.rawSign = BitVec.ofNat 8 (r.a.toNat / 2 ^ 16) :=
  extractLsb'_eq_ofNat_div ..

theorem normExp_eq (r : Request) : r.normExp = BitVec.ofNat 8 (r.a.toNat / 2 ^ 24) :=
  extractLsb'_eq_ofNat_div ..

/-! ### The slices put back on the ports (R36) -/

/-- A mask of `k` low bits keeps the number modulo `2 ^ k`. -/
theorem toNat_and_lowMask (x : Word) {mask : Word} {k : Nat} (h : mask.toNat = 2 ^ k - 1) :
    (x &&& mask).toNat = x.toNat % 2 ^ k := by
  rw [BitVec.toNat_and, h, Nat.and_two_pow_sub_one_eq_mod]

/-- The low byte of a port, put back on it. -/
theorem zext_low (x : Word) : zext (x.extractLsb' 0 8) = x &&& 0x000000FF#32 := by
  apply BitVec.eq_of_toNat_eq
  rw [zext_toNat (by norm_num), toNat_and_lowMask x (k := 8) rfl, BitVec.extractLsb'_toNat, Nat.shiftRight_zero]

/-- The three raw bytes of format T, put back on `a`. -/
theorem zext_packSlices (r : Request) :
    zext (r.rawSign ++ r.rawExp ++ r.aLow) = r.a &&& 0x00FFFFFF#32 := by
  apply BitVec.eq_of_toNat_eq
  rw [zext_toNat (by norm_num), toNat_and_lowMask r.a (k := 24) rfl, append_toNat, append_toNat, rawSign_eq,
    rawExp_eq, aLow_eq]
  simp only [BitVec.toNat_ofNat]
  omega

/-- The raw pair of format EM, put back on `a`. -/
theorem append_normSlices (r : Request) : r.normExp ++ r.normSig = r.a := by
  have := r.a.isLt
  apply BitVec.eq_of_toNat_eq
  rw [append_toNat, normExp_eq, normSig_eq]
  simp only [BitVec.toNat_ofNat]
  omega

/-! ### The decoder's rows (R34, R35) -/

theorem decode_of_reserved {r : Request} (h : 18 ≤ r.op.toNat) : decode r = decodeReserved r.op := by
  unfold decode
  split
  case h_19 => rfl
  all_goals omega

/-- The three reserved rows and the codes each takes. -/
theorem decodeReserved_cases (op : OpCode) :
    op.toNat ≤ 19 ∧ decodeReserved op = .reserved1819 op ∨
      (20 ≤ op.toNat ∧ op.toNat ≤ 23) ∧ decodeReserved op = .reserved2023 op ∨
      24 ≤ op.toNat ∧ decodeReserved op = .reserved2431 op := by
  unfold decodeReserved
  split
  · next hhi => exact .inl ⟨hhi, rfl⟩
  · split
    · next hlo hhi => exact .inr (.inl ⟨⟨by omega, hhi⟩, rfl⟩)
    · next hlo => exact .inr (.inr ⟨by omega, rfl⟩)

/-- Every reserved code is in the range of its row. -/
theorem decodeReserved_wellFormed {op : OpCode} (h : 18 ≤ op.toNat) :
    (decodeReserved op).wellFormed = true := by
  have hmax : op.toNat ≤ 31 := Nat.le_of_lt_succ op.isLt
  rcases decodeReserved_cases op with ⟨hhi, hrow⟩ | ⟨hrange, hrow⟩ | ⟨hlo, hrow⟩ <;> rw [hrow]
  · exact inRange_iff.2 ⟨h, hhi⟩
  · exact inRange_iff.2 hrange
  · exact inRange_iff.2 ⟨hlo, hmax⟩

/-- A reserved row holds its code, and puts nothing on the operand ports. -/
theorem encode_decodeReserved (op : OpCode) : encode (decodeReserved op) = { op := op, a := 0, b := 0 } := by
  rcases decodeReserved_cases op with ⟨_, hrow⟩ | ⟨_, hrow⟩ | ⟨_, hrow⟩ <;> rw [hrow] <;> rfl

/-- The rows of the operation map are the 18 operations and the reserved codes. -/
theorem decode_wellFormed (r : Request) : (decode r).wellFormed = true := by
  by_cases h : 18 ≤ r.op.toNat
  · rw [decode_of_reserved h]
    exact decodeReserved_wellFormed h
  · unfold decode
    split
    case h_19 => simp only [imp_false] at *; omega
    all_goals rfl

/-- An instruction of the code of `r` whose ports are the named bits of `r` encodes to `r` without its other bits. -/
theorem encode_eq_clean {r : Request} {i : Instr} (hop : r.op.toNat = i.opCode.toNat)
    (ha : i.portA = r.a &&& namedA i.opCode) (hb : i.portB = r.b &&& namedB i.opCode) :
    encode i = r.clean := by
  rw [encode, ha, hb, ← BitVec.eq_of_toNat_eq hop, Request.clean]

/-- Encoding a decoded request, format by format (R32): what its format names is put back, and the rest is 0. -/
theorem encode_decode (r : Request) : encode (decode r) = r.clean := by
  have hnone (x : Word) : 0#32 = x &&& 0#32 := BitVec.and_zero.symm
  have hall (x : Word) : x = x &&& 0xFFFFFFFF#32 := BitVec.and_allOnes.symm
  by_cases hreserved : 18 ≤ r.op.toNat
  · obtain ⟨ha, hb⟩ := Laws.CanonicalPorts.named_of_reserved r.op hreserved
    rw [decode_of_reserved hreserved, encode_decodeReserved, Request.clean, ha, hb]
    simp
  · unfold decode
    split
    case h_19 => simp only [imp_false] at *; omega
    -- formats N, T, EM and F
    case h_1 hop | h_2 hop => exact encode_eq_clean hop (hnone _) (hnone _)
    case h_3 hop => exact encode_eq_clean hop (zext_packSlices r) (hnone _)
    case h_11 hop => exact encode_eq_clean hop ((append_normSlices r).trans (hall _)) (hnone _)
    case h_17 hop | h_18 hop => exact encode_eq_clean hop (hall _) (hnone _)
    -- format VV
    case h_10 hop | h_13 hop | h_14 hop | h_15 hop =>
      exact encode_eq_clean hop (zext_low r.a) (zext_low r.b)
    -- format V
    all_goals next hop => exact encode_eq_clean hop (zext_low r.a) (hnone _)

theorem opCode_decode (r : Request) : (decode r).opCode = r.op :=
  congrArg Request.op (encode_decode r)

/-- The bits a format does not name do not reach the decoded instruction (R36). -/
theorem decode_clean (r : Request) : decode r.clean = decode r := by
  rw [← encode_decode, decode_encode (decode_wellFormed r)]

end Sys2Proof

namespace Sys2Proof.Machine

open Sys2Proof.Claims Sys2Proof.Safety

theorem step_of_decode {s : State} {i : Instr} (h : decode s.request = i) : step s = exec i s := by
  rw [step, h]

/-- Whichever reserved row a code is in, the answer is ILLEGAL (60_exceptions.md R92). -/
theorem exec_decodeReserved (op : OpCode) (s : State) :
    exec (decodeReserved op) s = .next (raised s .illegal) := by
  rcases decodeReserved_cases op with ⟨_, hrow⟩ | ⟨_, hrow⟩ | ⟨_, hrow⟩ <;> rw [hrow] <;> rfl

/-! ### The answers a code allows (R33, R90 to R93) -/

/-- A field on `y` stays inside its width. -/
theorem zext_toNat_lt {n : Nat} (x : BitVec n) : (zext x).toNat < 2 ^ n := by
  rw [zext, BitVec.toNat_setWidth]
  exact lt_of_le_of_lt (Nat.mod_le _ _) x.isLt

/-- The codes with a result are those of the operations. -/
theorem lt_of_resultBits_ne_zero {op : OpCode} : resultBits op ≠ 0 → op.toNat < 18 := by
  revert op; decide

/-- NORM packs a Value of sign 0, so its result has 7 bits. -/
theorem normalizePack_zero_lt (e m : Nat) : (normalizePack 0 e m).toNat < 2 ^ 7 := by
  obtain ⟨he, hm⟩ := normalize_fits e m
  rw [normalizePack_toNat]
  omega

/-- A result that stays inside its field is allowed. -/
theorem answerAllowed_done {op : OpCode} {n : Nat} {y : Word} (hy : y.toNat < 2 ^ n) (hbits : resultBits op = n)
    (hn : n ≠ 0) : AnswerAllowed op (Answer.done y) := by
  have hop : op.toNat < 18 := lt_of_resultBits_ne_zero (hbits ▸ hn)
  simp [AnswerAllowed, hbits, hy, hop]

/-- ABSENT is allowed at XFROMF32's code. -/
theorem answerAllowed_absent {op : OpCode} (h : op.toNat = 16) : AnswerAllowed op (Answer.raised .absent) := by
  simp [AnswerAllowed, h]

/-- ILLEGAL is allowed at the reserved codes. -/
theorem answerAllowed_illegal {op : OpCode} (h : 18 ≤ op.toNat) :
    AnswerAllowed op (Answer.raised .illegal) := by
  simp [AnswerAllowed, h]

theorem exec_xfromf32_of_some {f : Word} {v : Value} (h : exactFromF32 f = some v) (s : State) :
    exec (.xfromf32 f) s = .next (s.answer (Answer.done (placeValue v))) := by
  simp only [exec, execXfromf32, h, State.finish]

theorem exec_xfromf32_of_none {f : Word} (h : exactFromF32 f = none) (s : State) :
    exec (.xfromf32 f) s = .next (s.answer (Answer.raised .absent)) := by
  simp only [exec, execXfromf32, h, State.raise]

/-- Every well-formed instruction answers within what its code allows. All but NORM, TOF32, the exact conversion and
the reserved rows complete with a field of their code's width. -/
theorem exec_answerAllowed {i : Instr} (h : i.wellFormed = true) :
    ∃ x : Answer, (∀ s : State, exec i s = .next (s.answer x)) ∧ AnswerAllowed i.opCode x := by
  cases i with
  | norm e m =>
    have hy : (placeValue (normalizePack 0 e.toNat m.toNat)).toNat < 2 ^ 7 := by
      rw [placeValue, zext_toNat (by norm_num)]
      exact normalizePack_zero_lt _ _
    exact ⟨_, fun _ => rfl, answerAllowed_done hy rfl (by decide)⟩
  | tof32 v => exact ⟨_, fun _ => rfl, answerAllowed_done (toF32 v).isLt rfl (by decide)⟩
  | xfromf32 f =>
    cases hv : exactFromF32 f with
    | some v =>
      exact ⟨_, exec_xfromf32_of_some hv, answerAllowed_done (zext_toNat_lt v) rfl (by decide)⟩
    | none => exact ⟨_, exec_xfromf32_of_none hv, answerAllowed_absent rfl⟩
  | reserved1819 op => exact ⟨_, fun _ => rfl, answerAllowed_illegal (inRange_iff.1 h).1⟩
  | reserved2023 op =>
    exact ⟨_, fun _ => rfl, answerAllowed_illegal (le_trans (by norm_num) (inRange_iff.1 h).1)⟩
  | reserved2431 op =>
    exact ⟨_, fun _ => rfl, answerAllowed_illegal (le_trans (by norm_num) (inRange_iff.1 h).1)⟩
  | _ => exact ⟨_, fun _ => rfl, answerAllowed_done (zext_toNat_lt _) rfl (by decide)⟩

/-! ### Request lines that feed back (R39) -/

/-- The one way an operand fails to resolve: it names a line that has no answer yet. -/
theorem operandNumber_error {done : List Answer} {o : ListOperand} {e : ListError}
    (h : operandNumber done o = .error e) : ∃ j, done.length ≤ j ∧ e = .notEarlier j := by
  cases o with
  | literal n => cases h
  | result k =>
    rcases Nat.lt_or_ge k done.length with hk | hk
    · rw [operandNumber_result done (List.getElem?_eq_getElem hk)] at h
      cases h
    · rw [operandNumber_notEarlier done hk] at h
      cases h
      exact ⟨k, hk, rfl⟩

/-- Operands that do not resolve fail by the name of a line that has no answer yet. -/
theorem operandNumbers_error {done : List Answer} {os : List ListOperand} {e : ListError}
    (h : operandNumbers done os = .error e) : ∃ j, done.length ≤ j ∧ e = .notEarlier j := by
  induction os with
  | nil => cases h
  | cons o os ih =>
    rw [operandNumbers] at h
    cases ho : operandNumber done o with
    | error e' =>
      simp only [ho, Except.error.injEq] at h
      exact h ▸ operandNumber_error ho
    | ok n =>
      cases hos : operandNumbers done os with
      | error e' =>
        simp only [ho, hos, Except.error.injEq] at h
        exact ih (hos.trans (congrArg _ h))
      | ok ns => simp [ho, hos] at h

/-- Operands of which one names a line without an answer do not resolve. -/
theorem operandNumbers_ne_ok {done : List Answer} {os : List ListOperand} {k : Nat}
    (hmem : .result k ∈ os) (hk : done.length ≤ k) (ns : List Nat) : operandNumbers done os ≠ .ok ns := by
  intro hok
  obtain ⟨index, hindex, hget⟩ := List.getElem_of_mem hmem
  have hall := (operandNumbers_ok_iff done os ns).1 hok
  have hresolves := hall.get hindex (hall.length_eq ▸ hindex)
  rw [List.get_eq_getElem, hget, operandNumber_notEarlier done hk] at hresolves
  cases hresolves

end Sys2Proof.Machine

namespace Sys2Proof.Proofs

open Sys2Proof.Machine Sys2Proof.Claims Sys2Proof.Safety

/-- Settles O7: the decoded request is a well-formed instruction of the code on `op`, so its answer is allowed
there; presenting a request leaves no answer to check. -/
theorem answersFitTheirCode : Obligations.AnswersFitTheirCode := by
  refine ⟨fun s t _ hstep => ?_, fun s r _ x hx => by cases hx⟩
  obtain ⟨x, hexec, hallowed⟩ := exec_answerAllowed (decode_wellFormed s.request)
  obtain rfl : s.answer x = t := Host.Outcome.next.inj ((hexec s).symm.trans hstep)
  refine ⟨rfl, fun x' hx' => ?_⟩
  cases hx'
  rwa [opCode_decode] at hallowed

/-- Settles O12: the ports by the codec's round trip, the table word because it stands for the same request. -/
theorem decodeOfEncode : Obligations.DecodeOfEncode := fun i h => by
  refine ⟨decode_encode h, ?_⟩
  rw [encodeWord, decodeTableWord_word, decode_encode h]

/-- Settles O2: each code selects its row of the operation map, with its slices as numbers. -/
theorem operationCodesSelectRowsAndOperands : Obligations.OperationCodesSelectRowsAndOperands := by
  intro s
  refine ⟨?_, ?_, ?_, ?_, ?_, ?_, ?_, ?_, ?_, ?_, ?_, ?_, ?_, ?_, ?_, ?_, ?_, ?_⟩
  all_goals
    intro hop
    apply step_of_decode
    simp only [decode, State.request_op, hop, aLow_eq, bLow_eq, rawSign_eq, rawExp_eq, normExp_eq, normSig_eq,
      State.request_a, State.request_b]

/-- Settles O3: two requests that agree on the named bits decode to one instruction, and an instruction answers the
same from every state. -/
theorem unnamedOperandBitsAreIgnored : Obligations.UnnamedOperandBitsAreIgnored := by
  intro s s' hop ha hb
  have hclean : s.request.clean = s'.request.clean := by
    simp only [Request.clean, State.request_op, State.request_a, State.request_b, ha, hb, ← hop]
  have hdecode : decode s'.request = decode s.request := by
    rw [← decode_clean, ← hclean, decode_clean]
  obtain ⟨x, hexec⟩ := exec_answers (decode s.request)
  exact ⟨x, hexec s, (step_of_decode hdecode).trans (hexec s')⟩

/-- Settles O13, format by format. -/
theorem encodeOfDecode : Obligations.EncodeOfDecode :=
  fun r => ⟨decode_wellFormed r, encode_decode r⟩

/-- Settles O14: the word is the three ports at 2^64, 2^32 and 1, each below the next one's place. -/
theorem requestWordsArePortAssignments : Obligations.RequestWordsArePortAssignments :=
  ⟨fun r => ⟨word_eq r, requestOfWord_word r⟩, fun _ h => word_requestOfWord h⟩

/-- Settles O54: the line's operands do not all resolve, and that fails by a name only. -/
theorem feedbackWithinARequestIsRefused : Obligations.FeedbackWithinARequestIsRefused := by
  intro done l s k hmem hk
  cases hn : operandNumbers done l.operands with
  | ok ns => exact absurd hn (operandNumbers_ne_ok hmem hk ns)
  | error e =>
    obtain ⟨j, hj, rfl⟩ := operandNumbers_error hn
    exact ⟨j, hj, by simp only [runLine, hn]⟩

/-- Settles O1: `withFetchWord` presents the very request the table word decodes from. -/
theorem stepRunsDecodedRequest : Obligations.StepRunsDecodedRequest := by
  refine ⟨fun s nbits w i h => ?_, fun s i h => ⟨h ▸ decode_wellFormed _, step_of_decode h⟩⟩
  obtain ⟨_, hdecode⟩ := decodeTableWord_eq_some_iff.1 h
  exact ⟨hdecode ▸ decode_wellFormed _, hdecode, step_of_decode hdecode⟩

/-- Settles O11: every reserved row raises ILLEGAL, and every code from 18 on is in one. -/
theorem reservedCodesAnswerIllegal : Obligations.ReservedCodesAnswerIllegal :=
  ⟨fun _ _ => ⟨rfl, rfl, rfl⟩,
    fun s h => (step_of_decode (decode_of_reserved h)).trans (exec_decodeReserved s.op s), rfl⟩

/-- Settles O15: six closed words. -/
theorem specWordsDecode : Obligations.SpecWordsDecode := by
  unfold Obligations.SpecWordsDecode
  decide

end Sys2Proof.Proofs

/-! The codec rules (40_codec.md): PACK and its masks (R40), the accessors (R41 to R43), the sign predicates and the
signed digit (R44 to R46), equality (R47), the constants (R48, R49) and the round trips (R50). First how a step is
answered from its instruction's answer, then each function of the codec as arithmetic and each instruction's answer. -/

namespace Sys2Proof.Machine

open Sys2Proof.Claims

/-! ### From the answer of an instruction to that of a request -/

/-- Completing with a word is answering its number. -/
theorem finish_eq_answered {y : Word} {n : Nat} (h : y.toNat = n) (s : State) : s.finish y = answered s n := by
  rw [answered, ← h, BitVec.ofNat_toNat, BitVec.setWidth_eq]
  rfl

/-- Completing with a field is answering its number (R33). -/
theorem finish_zext {n : Nat} (hn : n ≤ 32) (x : BitVec n) (s : State) : s.finish (zext x) = answered s x.toNat :=
  finish_eq_answered (zext_toNat hn x) s

theorem finish_placeBit (x : Bool) (s : State) : s.finish (placeBit x) = answered s x.toNat := by
  rw [placeBit, finish_zext (by norm_num), BitVec.toNat_ofBool]

/-- A row of format V whose instruction answers the number `g` of its operand. -/
theorem unaryAnswers_of_row {code : Nat} {i : Value → Instr} {f : Nat → Nat} {g : Value → Nat}
    (hrow : ∀ s : State, s.op.toNat = code → step s = exec (i (BitVec.ofNat 8 s.a.toNat)) s)
    (hexec : ∀ (v : Value) (s : State), exec (i v) s = .next (answered s (g v)))
    (hnumber : ∀ v : Value, g v = f v.toNat) : UnaryAnswers code i f := by
  refine ⟨fun v s => by rw [hexec, hnumber], fun s hop => ?_⟩
  rw [hrow s hop, hexec, hnumber, BitVec.toNat_ofNat]

/-- A row of format VV whose instruction answers the number `g` of its operands. -/
theorem binaryAnswers_of_row {code : Nat} {i : Value → Value → Instr} {f : Nat → Nat → Nat}
    {g : Value → Value → Nat}
    (hrow : ∀ s : State, s.op.toNat = code →
      step s = exec (i (BitVec.ofNat 8 s.a.toNat) (BitVec.ofNat 8 s.b.toNat)) s)
    (hexec : ∀ (v w : Value) (s : State), exec (i v w) s = .next (answered s (g v w)))
    (hnumber : ∀ v w : Value, g v w = f v.toNat w.toNat) : BinaryAnswers code i f := by
  refine ⟨fun v w s => by rw [hexec, hnumber], fun s hop => ?_⟩
  rw [hrow s hop, hexec, hnumber, BitVec.toNat_ofNat, BitVec.toNat_ofNat]

/-! ### The functions as arithmetic -/

/-- PACK's three masks (R40). -/
theorem pack_toNat_eq_byte (s e m : Nat) : (pack s e m).toNat = byte (s % 2) (e % 8, m % 16) :=
  pack_toNat s e m

theorem zeroValue_toNat : zeroValue.toNat = 0x00 := pack_toNat 0 0 0

theorem oneValue_toNat : oneValue.toNat = 0x21 := pack_toNat 0 Config.bias 1

/-- The sign bit as the slice `v[7]` (R41). -/
theorem signBit_toNat_slice (v : Value) : (signBit v).toNat = v.toNat / 2 ^ 7 % 2 := by
  have := v.isLt
  rw [signBit_toNat]
  omega

theorem isNegative_toNat (v : Value) : (isNegative v).toNat = v.toNat / 2 ^ 7 % 2 := by
  rw [← signBit_toNat_eq_isNegative, signBit_toNat_slice]

/-- The two sign predicates are each other's complement (R45). -/
theorem isNonNegative_eq_not (v : Value) : isNonNegative v = !isNegative v := by
  have hbit : ∀ x : BitVec 1, (x == 0) = !(x == 1) := by decide
  exact hbit (signBit v)

theorem isNonNegative_toNat (v : Value) : (isNonNegative v).toNat = 1 - v.toNat / 2 ^ 7 % 2 := by
  rw [isNonNegative_eq_not, ← isNegative_toNat]
  cases isNegative v <;> rfl

theorem isNegative_iff {v : Value} : isNegative v = true ↔ v.toNat / 2 ^ 7 % 2 = 1 := by
  rw [← isNegative_toNat, Bool.toNat_eq_one]

/-- The zero test of SGN looks at `v[6:0]` (R46). -/
theorem sgnIsZero_iff {v : Value} : sgnIsZero v = true ↔ v.toNat % 2 ^ 7 = 0 := by
  rw [sgnIsZero, beq_iff_eq, ← BitVec.toNat_inj, BitVec.extractLsb'_toNat, Nat.shiftRight_zero]
  rfl

/-- The signed digit in eight bits of two's complement (R46). -/
theorem sgnDigit_toNat (v : Value) :
    (BitVec.ofInt 8 (sgnDigit v)).toNat =
      if v.toNat % 2 ^ 7 = 0 then 0x00 else if v.toNat / 2 ^ 7 % 2 = 1 then 0xFF else 0x01 := by
  simp only [sgnDigit, sgnIsZero_iff, isNegative_iff]
  split_ifs <;> rfl

theorem valueEq_toNat (v w : Value) : (valueEq v w).toNat = if v.toNat = w.toNat then 1 else 0 := by
  simp only [valueEq, BitVec.toNat_inj, Bool.toNat, cond_eq_ite, beq_iff_eq]

/-! ### The instructions' answers -/

theorem exec_zero (s : State) : exec .zero s = .next (answered s zeroValue.toNat) :=
  congrArg Host.Outcome.next (finish_placeValue s _)

theorem exec_one (s : State) : exec .one s = .next (answered s oneValue.toNat) :=
  congrArg Host.Outcome.next (finish_placeValue s _)

theorem exec_pack (rs re rm : BitVec 8) (s : State) :
    exec (.pack rs re rm) s = .next (answered s (pack rs.toNat re.toNat rm.toNat).toNat) :=
  congrArg Host.Outcome.next (finish_placeValue s _)

theorem exec_sbit (v : Value) (s : State) : exec (.sbit v) s = .next (answered s (signBit v).toNat) :=
  congrArg Host.Outcome.next (finish_zext (by norm_num) _ s)

theorem exec_expf (v : Value) (s : State) : exec (.expf v) s = .next (answered s (exponentField v).toNat) :=
  congrArg Host.Outcome.next (finish_zext (by norm_num) _ s)

theorem exec_sigf (v : Value) (s : State) : exec (.sigf v) s = .next (answered s (significandField v).toNat) :=
  congrArg Host.Outcome.next (finish_zext (by norm_num) _ s)

theorem exec_isneg (v : Value) (s : State) : exec (.isneg v) s = .next (answered s (isNegative v).toNat) :=
  congrArg Host.Outcome.next (finish_placeBit _ s)

theorem exec_isnneg (v : Value) (s : State) :
    exec (.isnneg v) s = .next (answered s (isNonNegative v).toNat) :=
  congrArg Host.Outcome.next (finish_placeBit _ s)

theorem exec_sgn (v : Value) (s : State) :
    exec (.sgn v) s = .next (answered s (BitVec.ofInt 8 (sgnDigit v)).toNat) :=
  congrArg Host.Outcome.next (finish_zext (by norm_num) _ s)

theorem exec_eq (v w : Value) (s : State) : exec (.eq v w) s = .next (answered s (valueEq v w).toNat) :=
  congrArg Host.Outcome.next (finish_placeBit _ s)

theorem exec_tof32 (v : Value) (s : State) : exec (.tof32 v) s = .next (answered s (toF32 v).toNat) :=
  congrArg Host.Outcome.next (finish_eq_answered rfl s)

end Sys2Proof.Machine

namespace Sys2Proof.Proofs

open Sys2Proof.Machine Sys2Proof.Claims

/-- Settles O18: the operands are 8 bits wide, so taking them from the port keeps the bits the masks keep. -/
theorem packMasksItsFields : Obligations.PackMasksItsFields := by
  choose _ _ hrow _ using operationCodesSelectRowsAndOperands
  refine ⟨fun rs re rm s => by rw [exec_pack, pack_toNat_eq_byte], fun s hop => ?_⟩
  have hsign : s.a.toNat / 2 ^ 16 % 2 ^ 8 % 2 = s.a.toNat / 2 ^ 16 % 2 := by omega
  have hexp : s.a.toNat / 2 ^ 8 % 2 ^ 8 % 8 = s.a.toNat / 2 ^ 8 % 8 := by omega
  have hsig : s.a.toNat % 2 ^ 8 % 16 = s.a.toNat % 16 := by omega
  rw [hrow s hop, exec_pack, pack_toNat_eq_byte]
  simp only [BitVec.toNat_ofNat, hsign, hexp, hsig]

/-- Settles O19: the three accessors' slices. -/
theorem accessorsAnswerTheirSlices : Obligations.AccessorsAnswerTheirSlices := by
  choose _ _ _ hsbit hexpf hsigf _ using operationCodesSelectRowsAndOperands
  exact ⟨unaryAnswers_of_row hsbit exec_sbit signBit_toNat_slice,
    unaryAnswers_of_row hexpf exec_expf exponentField_toNat,
    unaryAnswers_of_row hsigf exec_sigf significandField_toNat⟩

/-- Settles O20: one predicate is the sign bit, and the other its complement. -/
theorem signPredicatesAnswerTheSignBit : Obligations.SignPredicatesAnswerTheSignBit := by
  choose _ _ _ _ _ _ hisneg hisnneg _ using operationCodesSelectRowsAndOperands
  exact ⟨unaryAnswers_of_row hisneg exec_isneg isNegative_toNat,
    unaryAnswers_of_row hisnneg exec_isnneg isNonNegative_toNat⟩

/-- Settles O21: the digit of each of the three cases of R46. -/
theorem signedDigitAnswers : Obligations.SignedDigitAnswers := by
  choose _ _ _ _ _ _ _ _ hsgn _ using operationCodesSelectRowsAndOperands
  exact unaryAnswers_of_row hsgn exec_sgn sgnDigit_toNat

/-- Settles O22: two bytes are equal exactly when their numbers are. -/
theorem equalityIsOfBitPatterns : Obligations.EqualityIsOfBitPatterns := by
  choose _ _ _ _ _ _ _ _ _ heq _ using operationCodesSelectRowsAndOperands
  exact binaryAnswers_of_row heq exec_eq valueEq_toNat

/-- Settles O23: packing is the sum of the three masked fields at their places, and a byte is that sum of its own. -/
theorem packAndAccessorsAreInverse : Obligations.PackAndAccessorsAreInverse := by
  refine ⟨fun v => BitVec.eq_of_toNat_eq ?_, fun s e m => ⟨?_, ?_, ?_⟩⟩
  · have hs := signBit_toNat_le v
    have he := exponentField_le v
    have hm := significandField_le v
    rw [toNat_eq_fields v, pack_toNat]
    omega
  · rw [signBit_toNat, pack_toNat]; omega
  · rw [exponentField_toNat, pack_toNat]; omega
  · rw [significandField_toNat, pack_toNat]; omega

/-- Settles O16: the two constants are two packed triples, and their conversions two closed words. -/
theorem constantsAnswer : Obligations.ConstantsAnswer := by
  choose hzeroRow honeRow _ using operationCodesSelectRowsAndOperands
  have hzero (s : State) : exec .zero s = .next (answered s 0x00000000) := by
    rw [exec_zero, zeroValue_toNat]
  have hone (s : State) : exec .one s = .next (answered s 0x00000021) := by
    rw [exec_one, oneValue_toNat]
  have hzeroF32 : (toF32 0x00).toNat = 0x00000000 := by decide
  have honeF32 : (toF32 0x21).toNat = 0x3F800000 := by decide
  exact ⟨fun s => ⟨hzero s, hone s⟩, fun s hop => (hzeroRow s hop).trans (hzero s),
    fun s hop => (honeRow s hop).trans (hone s),
    fun s => ⟨by rw [exec_tof32, hzeroF32], by rw [exec_tof32, honeF32]⟩⟩

end Sys2Proof.Proofs

/-! The normalizer rules (41_normalizer.md): the loop's closed form (R56), NORM (R57) and what a normalized pair keeps
(R58). First the number of halvings, the loop one halving at a time, and what a halved significand is. -/

namespace Sys2Proof.Machine

open Sys2Proof.Claims

/-! ### The number of halvings, `bitlen m - 4` (R56) -/

theorem halvings_of_le {m : Nat} (h : m ≤ 15) : bitlen m - 4 = 0 :=
  Nat.sub_eq_zero_of_le (bitlen_le (by omega))

theorem four_lt_bitlen {m : Nat} (h : 15 < m) : 4 < bitlen m := by
  have hpow : 2 ^ 4 < 2 ^ bitlen m := lt_of_le_of_lt h (lt_two_pow_bitlen m)
  exact (Nat.pow_lt_pow_iff_right (by norm_num)).1 hpow

/-- A significand above 15, halved until it is 15 or less, is still at least 8 (R58 c). -/
theorem eight_le_halved {m : Nat} (h : 15 < m) : 8 ≤ m / 2 ^ (bitlen m - 4) := by
  have hlen := four_lt_bitlen h
  rw [Nat.le_div_iff_mul_le (by positivity)]
  calc 8 * 2 ^ (bitlen m - 4) = 2 ^ (3 + (bitlen m - 4)) := (pow_add 2 3 _).symm
    _ = 2 ^ (bitlen m - 1) := by congr 1; omega
    _ ≤ m := (leadingOne_bounds (by omega)).1

/-! ### The loop (R55) -/

theorem normalizeLoop_of_le (e : Nat) {m : Nat} (h : m ≤ 15) : normalizeLoop e m = (e, m) := by
  have hsig : ¬ m > Config.sigMax := by simp only [Config.sigMax]; omega
  cases e with
  | zero => rw [normalizeLoop, if_neg hsig]
  | succ e => rw [normalizeLoop, if_neg hsig]

/-- "saturation to infinity is forced early" (R55). -/
theorem normalizeLoop_zero_of_gt {m : Nat} (h : 15 < m) : normalizeLoop 0 m = (7, 0) := by
  have hsig : m > Config.sigMax := h
  rw [normalizeLoop, if_pos hsig]
  rfl

theorem normalizeLoop_succ_of_gt (e : Nat) {m : Nat} (h : 15 < m) :
    normalizeLoop (e + 1) m = normalizeLoop e (m >>> 1) := by
  have hsig : m > Config.sigMax := h
  rw [normalizeLoop, if_pos hsig]

/-- The loop saturates when it needs more halvings than the exponent allows (R56). Each pass takes one from both. -/
theorem normalizeLoop_eq (e m : Nat) :
    normalizeLoop e m =
      if e < bitlen m - 4 then (7, 0) else (e - (bitlen m - 4), m / 2 ^ (bitlen m - 4)) := by
  induction e generalizing m with
  | zero =>
    rcases Nat.lt_or_ge 15 m with hm | hm
    · have hlen := four_lt_bitlen hm
      rw [normalizeLoop_zero_of_gt hm, if_pos (by omega)]
    · simp [normalizeLoop_of_le 0 hm, halvings_of_le hm]
  | succ e ih =>
    rcases Nat.lt_or_ge 15 m with hm | hm
    · have hlen := four_lt_bitlen hm
      obtain ⟨k, hk⟩ : ∃ k, bitlen m - 4 = k + 1 := ⟨bitlen m - 5, by omega⟩
      have hhalf : bitlen (m >>> 1) - 4 = k := by rw [bitlen_half (by omega)]; omega
      have hsig : m >>> 1 / 2 ^ k = m / 2 ^ (k + 1) := by
        rw [Nat.shiftRight_eq_div_pow, Nat.div_div_eq_div_mul, pow_one, pow_succ']
      rw [normalizeLoop_succ_of_gt e hm, ih, hhalf, hk, hsig]
      simp only [Nat.add_lt_add_iff_right, Nat.add_sub_add_right]
    · simp [normalizeLoop_of_le (e + 1) hm, halvings_of_le hm]

/-! ### The normalized pair (R56, R58) -/

/-- The exponent's test looks at nothing else (R55). -/
theorem normalizePair_of_seven_le {e : Nat} (m : Nat) (h : 7 ≤ e) : normalizePair e m = (7, 0) :=
  if_pos h

theorem normalizePair_of_lt_seven {e : Nat} (m : Nat) (h : e < 7) : normalizePair e m = normalizeLoop e m :=
  if_neg (Nat.not_le.2 h)

theorem normalizePair_eq_normalForm (e m : Nat) : normalizePair e m = normalForm e m := by
  rcases Nat.lt_or_ge e 7 with he | he
  · simp only [normalizePair_of_lt_seven m he, normalizeLoop_eq, normalForm, Nat.not_le.2 he, false_or]
  · simp only [normalizePair_of_seven_le m he, normalForm, he, true_or, if_true]

/-- A significand that has to be halved leaves the sentinel, or at least 8 (R58 c). -/
theorem normalizePair_of_gt (e : Nat) {m : Nat} (h : 15 < m) :
    normalizePair e m = (7, 0) ∨ 8 ≤ (normalizePair e m).2 := by
  rw [normalizePair_eq_normalForm, normalForm]
  split
  · exact .inl rfl
  · exact .inr (eight_le_halved h)

/-- Only a zero significand, or saturation, leaves significand 0 (R58 c). -/
theorem eq_zero_or_sentinel_of_normalizePair {e m : Nat} (h : (normalizePair e m).2 = 0) :
    m = 0 ∨ normalizePair e m = (7, 0) := by
  rcases Nat.lt_or_ge 15 m with hm | hm
  · rcases normalizePair_of_gt e hm with hsentinel | height
    · exact .inr hsentinel
    · omega
  · rcases Nat.lt_or_ge e 7 with he | he
    · rw [normalizePair_of_fits (by omega) hm] at h
      exact .inl h
    · exact .inr (normalizePair_of_seven_le m he)

/-! ### NORM (R57) -/

/-- A normalized and packed value is the byte of the closed form. -/
theorem normalizePack_toNat_eq_byte (s e m : Nat) :
    (normalizePack s e m).toNat = byte (s % 2) (normalForm e m) := by
  rw [normalizePack_toNat, normalizePair_eq_normalForm]
  rfl

theorem exec_norm (e : BitVec 8) (m : BitVec 24) (s : State) :
    exec (.norm e m) s = .next (answered s (byte 0 (normalForm e.toNat m.toNat))) := by
  have hbyte : (normalizePack 0 e.toNat m.toNat).toNat = byte 0 (normalForm e.toNat m.toNat) :=
    normalizePack_toNat_eq_byte 0 _ _
  rw [← hbyte]
  exact congrArg Host.Outcome.next (finish_placeValue s _)

end Sys2Proof.Machine

namespace Sys2Proof.Proofs

open Sys2Proof.Machine Sys2Proof.Claims

/-- Settles O24, by induction on the exponent of the loop. -/
theorem normalizeHasClosedForm : Obligations.NormalizeHasClosedForm := normalizePair_eq_normalForm

/-- Settles O25: the port is 32 bits wide, so what stands above its low 24 bits is the exponent's byte. -/
theorem normAnswers : Obligations.NormAnswers := by
  choose _ _ _ _ _ _ _ _ _ _ hrow _ using operationCodesSelectRowsAndOperands
  refine ⟨exec_norm, fun s hop => ?_⟩
  have hexp : s.a.toNat / 2 ^ 24 % 2 ^ 8 = s.a.toNat / 2 ^ 24 := by
    have := s.a.isLt
    omega
  rw [hrow s hop, exec_norm, BitVec.toNat_ofNat, BitVec.toNat_ofNat, hexp]

/-- Settles O26: the bounds of the pair, the pairs in range, and the significand a halving leaves. -/
theorem normalizedPairsFit : Obligations.NormalizedPairsFit := by
  intro e m
  obtain ⟨hexp, hsig⟩ := normalize_fits e m
  exact ⟨⟨Nat.le_of_lt_succ hsig, Nat.le_of_lt_succ hexp⟩, fun hm he => normalizePair_of_fits he hm,
    eq_zero_or_sentinel_of_normalizePair, normalizePair_of_gt e⟩

end Sys2Proof.Proofs

/-! The adder rules (42_adder.md): alignment (R61, R63), the sum (R60, R62), NEG and SUB (R64, R65), the laws of the
sum (R66) and its sentinels (R67). First what an answer's status can be, then each function of the adder. -/

namespace Sys2Proof.Machine

open Sys2Proof.Claims Sys2Proof.Safety

/-! ### The status of an answer (R93) -/

/-- `FATAL` is the only status with code 3 (60_exceptions.md R90). -/
theorem Status.code_eq_three_iff {c : Status} : c.code = 3 ↔ c = .fatal := by
  cases c <;> decide

/-- What a step leaves on the outputs is an answer its code may have. -/
theorem step_answerAllowed {s t : State} {x : Answer} (hstep : step s = .next t) (hout : t.out = some x) :
    AnswerAllowed s.op x := by
  obtain ⟨x', hexec, hallowed⟩ := exec_answerAllowed (decode_wellFormed s.request)
  obtain rfl : s.answer x' = t := Host.Outcome.next.inj ((hexec s).symm.trans hstep)
  obtain rfl : x' = x := Option.some.inj hout
  rwa [opCode_decode] at hallowed

/-! ### Negation (R64) -/

@[simp] theorem exponentField_negateValue (v : Value) : exponentField (negateValue v) = exponentField v := by
  have hmask : (0x80 : Value).extractLsb' 4 3 = 0 := by decide
  rw [exponentField, negateValue, BitVec.extractLsb'_xor, hmask]
  exact BitVec.xor_zero

@[simp] theorem significandField_negateValue (v : Value) :
    significandField (negateValue v) = significandField v := by
  have hmask : (0x80 : Value).extractLsb' 0 4 = 0 := by decide
  rw [significandField, negateValue, BitVec.extractLsb'_xor, hmask]
  exact BitVec.xor_zero

@[simp] theorem isNegative_negateValue (v : Value) : isNegative (negateValue v) = !isNegative v := by
  have hmask : (0x80 : Value).extractLsb' 7 1 = 1 := by decide
  have hflip : ∀ x : BitVec 1, (x ^^^ 1 == 1) = !(x == 1) := by decide
  rw [isNegative, signBit, negateValue, BitVec.extractLsb'_xor, hmask]
  exact hflip (signBit v)

@[simp] theorem negateValue_negateValue (v : Value) : negateValue (negateValue v) = v := by
  rw [negateValue, negateValue, BitVec.xor_assoc, BitVec.xor_self, BitVec.xor_zero]

/-- Flipping the sign bit adds its place, modulo the byte. -/
theorem negateValue_toNat (v : Value) : (negateValue v).toNat = (v.toNat + 128) % 256 := by
  have he := exponentField_le v
  have hm := significandField_le v
  rw [toNat_eq_fields (negateValue v), toNat_eq_fields v, signBit_toNat_eq_isNegative,
    signBit_toNat_eq_isNegative, isNegative_negateValue, exponentField_negateValue,
    significandField_negateValue]
  cases isNegative v
  · simp only [Bool.not_false, Bool.toNat_true, Bool.toNat_false]; omega
  · simp only [Bool.not_true, Bool.toNat_true, Bool.toNat_false]; omega

theorem exec_neg (v : Value) (s : State) : exec (.neg v) s = .next (answered s (negateValue v).toNat) :=
  congrArg Host.Outcome.next (finish_placeValue s _)

/-! ### The sign arms (R62) -/

theorem normalForm_of_seven_le {e : Nat} (m : Nat) (h : 7 ≤ e) : normalForm e m = (7, 0) :=
  if_pos (.inl h)

theorem normalizePack_bool_toNat (n : Bool) (e m : Nat) :
    (normalizePack n.toNat e m).toNat = byte n.toNat (normalForm e m) := by
  rw [normalizePack_toNat_eq_byte, Nat.mod_eq_of_lt (Bool.toNat_lt n)]

/-- An opposite-sign arm: 0x00 on a tie, and else the difference, with the sign of the larger significand. -/
theorem cancel_toNat (n : Bool) (e x y : Nat) :
    (cancel n.toNat e x y).toNat =
      if x = y then 0
      else if y < x then byte n.toNat (normalForm e (x - y))
      else byte (!n).toNat (normalForm e (y - x)) := by
  have hsign : 1 - n.toNat = (!n).toNat := by cases n <;> rfl
  simp only [cancel, apply_ite BitVec.toNat, hsign, normalizePack_bool_toNat, zeroValue_toNat, gt_iff_lt]

/-- The four sign arms as numbers. -/
theorem combine_toNat (na nb : Bool) (e x y : Nat) :
    (combine na nb e x y).toNat =
      if na = nb then byte na.toNat (normalForm e (x + y))
      else if x = y then 0
      else if y < x then byte na.toNat (normalForm e (x - y))
      else byte nb.toNat (normalForm e (y - x)) := by
  rw [combine_eq]
  by_cases h : na = nb
  · rw [if_pos h, if_pos h, normalizePack_bool_toNat]
  · rw [if_neg h, if_neg h, cancel_toNat, Bool.eq_not.2 (Ne.symm h)]

/-- Exchanging the operands exchanges the two opposite-sign arms. -/
theorem combine_comm (na nb : Bool) (e x y : Nat) : combine na nb e x y = combine nb na e y x := by
  apply BitVec.eq_of_toNat_eq
  rw [combine_toNat, combine_toNat]
  by_cases h : na = nb
  · rw [if_pos h, if_pos h.symm, h, Nat.add_comm]
  · rw [if_neg h, if_neg (Ne.symm h)]
    rcases lt_trichotomy x y with hlt | rfl | hgt
    · simp only [hlt, hlt.ne, hlt.ne', hlt.not_gt, if_true, if_false]
    · rw [if_pos rfl, if_pos rfl]
    · simp only [hgt, hgt.ne, hgt.ne', hgt.not_gt, if_true, if_false]

/-- Opposite signs and equal aligned significands tie, at every exponent. -/
theorem combine_not_self (n : Bool) (e x : Nat) : combine n (!n) e x x = zeroValue := by
  rw [combine_eq, if_neg (Bool.not_ne_self n).symm, cancel, if_pos rfl]

/-! ### The sum (R60) -/

/-- Only the operand of the smaller exponent is doubled (R61). -/
theorem alignedSig_eq (n k : Nat) : alignedSig n k = sigOf n * 2 ^ (expOf k - expOf n) := by
  have hpasses : max (expOf n) (expOf k) - expOf n = expOf k - expOf n := by omega
  rw [alignedSig, hpasses]

/-- ADD is the sign arms at the larger exponent, on the aligned significands. -/
theorem addValue_eq (v w : Value) :
    addValue v w = combine (isNegative v) (isNegative w) (max (expOf v.toNat) (expOf w.toNat))
      (alignedSig v.toNat w.toNat) (alignedSig w.toNat v.toNat) := by
  simp only [addValue, align_eq, alignedSig_eq, expOf_toNat, sigOf_toNat]

/-- The byte of the sum is that of the closed forms (R60 to R62). -/
theorem addValue_toNat (v w : Value) : (addValue v w).toNat = sumByte v.toNat w.toNat := by
  have hsign (u : Value) : sgnOf u.toNat = (isNegative u).toNat := by
    rw [sgnOf_toNat, signBit_toNat_eq_isNegative]
  have hbits : ∀ m n : Bool, m.toNat = n.toNat ↔ m = n := by decide
  simp only [addValue_eq, combine_toNat, sumByte, hsign, hbits]

/-- The alignment and the sign arms are symmetric in the operands (R66). -/
theorem addValue_comm (v w : Value) : addValue v w = addValue w v := by
  rw [addValue_eq, combine_comm, max_comm, ← addValue_eq]

/-- A Value and its negation have one exponent and one significand, and tie (R66). -/
theorem addValue_negateValue (v : Value) : addValue v (negateValue v) = zeroValue := by
  rw [addValue_of_equal_exponents (exponentField_negateValue v).symm, isNegative_negateValue,
    significandField_negateValue, combine_not_self]

/-- The two sentinels as numbers. -/
theorem byte_sentinel (n : Bool) : byte n.toNat (7, 0) = if n then 0xF0 else 0x70 := by
  cases n <;> rfl

/-- From exponent 7 on, only a tie is not saturated (R67 c). -/
theorem combine_toNat_of_seven_le (na nb : Bool) {e : Nat} (he : 7 ≤ e) (x y : Nat) :
    (combine na nb e x y).toNat =
      if na ≠ nb ∧ x = y then 0x00
      else if x < y then (if nb then 0xF0 else 0x70)
      else (if na then 0xF0 else 0x70) := by
  simp only [combine_toNat, normalForm_of_seven_le _ he, byte_sentinel]
  by_cases h : na = nb
  · simp [h]
  · rcases lt_trichotomy x y with hlt | rfl | hgt
    · simp [h, hlt, hlt.ne, hlt.not_gt]
    · simp [h]
    · simp [h, hgt, hgt.ne', hgt.not_gt]

/-! ### Subtraction (R65) -/

theorem exec_sub_eq_exec_add (v w : Value) (s : State) :
    exec (.sub v w) s = exec (.add v (negateValue w)) s := rfl

theorem exec_add_negateValue (v : Value) (s : State) :
    exec (.add v (negateValue v)) s = .next (answered s 0x00) := by
  rw [exec_add, addValue_negateValue, zeroValue_toNat]

theorem exec_sub (v w : Value) (s : State) :
    exec (.sub v w) s = .next (answered s (subtractValue v w).toNat) :=
  exec_add v (negateValue w) s

theorem subtractValue_toNat (v w : Value) :
    (subtractValue v w).toNat = sumByte v.toNat ((w.toNat + 128) % 256) := by
  rw [subtractValue, addValue_toNat, negateValue_toNat]

end Sys2Proof.Machine

namespace Sys2Proof.Proofs

open Sys2Proof.Machine Sys2Proof.Claims

/-- Settles O9: an allowed answer is not FATAL, and alignment brings both exponents to the larger one. -/
theorem fatalIsNeverDriven : Obligations.FatalIsNeverDriven := by
  refine ⟨fun s t x hstep hout hcode => ?_, fun ea ma eb mb => by rw [align_eq]⟩
  obtain ⟨_, _, _, _, hfatal⟩ := step_answerAllowed hstep hout
  exact hfatal (Status.code_eq_three_iff.1 hcode)

/-- Settles O27: the mask 0x80 has no bit in the exponent and significand slices. -/
theorem negFlipsTheSignBitOnly : Obligations.NegFlipsTheSignBitOnly := by
  choose _ _ _ _ _ _ _ _ _ _ _ hneg _ using operationCodesSelectRowsAndOperands
  exact ⟨unaryAnswers_of_row hneg exec_neg negateValue_toNat, fun v =>
    ⟨negateValue_negateValue v, exponentField_negateValue v, significandField_negateValue v⟩⟩

/-- Settles O28: an alignment loop doubles once per step up to the larger exponent. -/
theorem alignmentHasClosedForm : Obligations.AlignmentHasClosedForm := by
  intro ea ma eb mb
  have hfirst : max ea eb - ea = eb - ea := by omega
  have hsecond : max ea eb - eb = ea - eb := by omega
  rw [align_eq, hfirst, hsecond]

/-- Settles O29, from the closed forms of alignment and of the normalizer. -/
theorem addAnswers : Obligations.AddAnswers := by
  choose _ _ _ _ _ _ _ _ _ _ _ _ hadd _ using operationCodesSelectRowsAndOperands
  exact binaryAnswers_of_row hadd exec_add addValue_toNat

/-- Settles O30: SUB runs ADD on the negated operand, and a Value with its own negation ties. -/
theorem subAnswersAddOfNegated : Obligations.SubAnswersAddOfNegated := by
  choose _ _ _ _ _ _ _ _ _ _ _ _ _ hsub _ using operationCodesSelectRowsAndOperands
  exact ⟨binaryAnswers_of_row hsub exec_sub subtractValue_toNat, exec_sub_eq_exec_add,
    fun v s => (exec_sub_eq_exec_add v v s).trans (exec_add_negateValue v s)⟩

/-- Settles O31: both orders add to one Value. -/
theorem addCommutes : Obligations.AddCommutes := fun v w s => by
  rw [exec_add, exec_add, addValue_comm]

/-- Settles O32: the tie arm of R62. -/
theorem addOfNegationIsZero : Obligations.AddOfNegationIsZero := exec_add_negateValue

/-- Settles O34: the larger exponent is then 7, where the normalizer saturates whatever the significand. -/
theorem addSaturatesAtExponentSeven : Obligations.AddSaturatesAtExponentSeven := by
  intro v w s hseven
  have he : 7 ≤ max (expOf v.toNat) (expOf w.toNat) := by omega
  rw [exec_add, addValue_eq, combine_toNat_of_seven_le _ _ he]

end Sys2Proof.Proofs

/-! The multiplier rules (43_multiplier.md): the product and its underflow (R70, R71), and that it is commutative and
XORs the signs (R72). First the three parts of a product, then the two arms of `multiply`. -/

namespace Sys2Proof.Machine

open Sys2Proof.Claims

/-! ### The parts of a product (R70) -/

/-- The XOR of two sign bits is their sum modulo 2. -/
theorem productSign_eq (v w : Value) : productSign v w = (sgnOf v.toNat + sgnOf w.toNat) % 2 := by
  have hxor : ∀ x y : BitVec 1, (x ^^^ y).toNat = (x.toNat + y.toNat) % 2 := by decide
  rw [productSign, hxor, sgnOf_toNat, sgnOf_toNat]

theorem productSign_comm (v w : Value) : productSign v w = productSign w v := by
  rw [productSign, BitVec.xor_comm, ← productSign]

theorem productExponent_comm (v w : Value) : productExponent v w = productExponent w v := by
  rw [productExponent, Int.add_comm, ← productExponent]

theorem productSignificand_comm (v w : Value) : productSignificand v w = productSignificand w v :=
  Nat.mul_comm _ _

/-! ### The product (R70, R71) -/

/-- Where the exponents sum to less than BIAS the product is discarded (R71). -/
theorem multiplyValue_of_lt_two {v w : Value} (h : (exponentField v).toNat + (exponentField w).toNat < 2) :
    multiplyValue v w = mulUnderflow (productSign v w) := by
  have hbias : Config.bias = 2 := rfl
  have hexp : productExponent v w < 0 := by
    rw [productExponent, hbias]; omega
  rw [multiplyValue, if_pos hexp]

theorem mulUnderflow_toNat (s : Nat) : (mulUnderflow s).toNat = byte (s % 2) (0, 0) :=
  pack_toNat_eq_byte s 0 0

/-- The byte of the product is that of the closed form, arm by arm (R70, R71). -/
theorem multiplyValue_toNat (v w : Value) : (multiplyValue v w).toNat = productByte v.toNat w.toNat := by
  simp only [productByte, expOf_toNat, sigOf_toNat, ← productSign_eq]
  have hsign : productSign v w % 2 = productSign v w := Nat.mod_eq_of_lt (Nat.lt_succ_of_le (productSign_le v w))
  rcases Nat.lt_or_ge ((exponentField v).toNat + (exponentField w).toNat) 2 with hlow | hhigh
  · rw [if_pos hlow, multiplyValue_of_lt_two hlow, mulUnderflow_toNat, hsign]
  · rw [if_neg (Nat.not_lt.2 hhigh), multiplyValue_of_two_le hhigh, normalizePack_toNat_eq_byte, hsign]
    rfl

/-! ### Commutativity and the sign (R72) -/

/-- Each part of the product is symmetric in the operands. -/
theorem multiplyValue_comm (v w : Value) : multiplyValue v w = multiplyValue w v := by
  rw [multiplyValue, productSign_comm, productExponent_comm, productSignificand_comm, ← multiplyValue]

/-- Both arms pack the sign of the product, whatever they put in the other two fields. -/
theorem multiplyValue_eq_pack (v w : Value) : ∃ e m : Nat, multiplyValue v w = pack (productSign v w) e m := by
  unfold multiplyValue
  split
  · exact ⟨0, 0, rfl⟩
  · exact ⟨_, _, rfl⟩

theorem signBit_pack_toNat (s e m : Nat) : (signBit (pack s e m)).toNat = s % 2 :=
  (Proofs.packAndAccessorsAreInverse.2 s e m).1

/-- The product's sign bit is the XOR of the operands', on underflow and saturation too. -/
theorem signBit_multiplyValue (v w : Value) : signBit (multiplyValue v w) = signBit v ^^^ signBit w := by
  obtain ⟨e, m, hpack⟩ := multiplyValue_eq_pack v w
  apply BitVec.eq_of_toNat_eq
  rw [hpack, signBit_pack_toNat, productSign, Nat.mod_eq_of_lt (BitVec.isLt _)]

end Sys2Proof.Machine

namespace Sys2Proof.Proofs

open Sys2Proof.Machine Sys2Proof.Claims

/-- Settles O35, from the closed form of the normalizer above BIAS and the signed zero below it. -/
theorem mulAnswers : Obligations.MulAnswers := by
  choose _ _ _ _ _ _ _ _ _ _ _ _ _ _ hmul _ using operationCodesSelectRowsAndOperands
  exact binaryAnswers_of_row hmul exec_mul multiplyValue_toNat

/-- Settles O36: both orders multiply to one Value, and that Value packs the XOR sign. -/
theorem mulCommutesAndXorsSigns : Obligations.MulCommutesAndXorsSigns :=
  ⟨fun v w s => by rw [exec_mul, exec_mul, multiplyValue_comm],
    fun v w s => ⟨multiplyValue v w, exec_mul v w s, signBit_multiplyValue v w⟩⟩

end Sys2Proof.Proofs

/-! The converter rules (44_converter.md): TOF32's pattern (R78), `decode` and `reduce` (R76, R77), the exact and the
approximate conversion (R79 to R83), the round trip and the special inputs (R84, R85). First the number a pattern
stands for, then its one odd form, then what each conversion makes of that form. -/

namespace Sys2Proof.Machine

open Sys2Proof.Claims

/-! ### TOF32 as arithmetic (R78) -/

theorem toF32_toNat (v : Value) :
    (toF32 v).toNat =
      let p := bitlen (significandField v).toNat - 1
      if (significandField v).toNat = 0 then (signBit v).toNat * 2 ^ 31
      else (signBit v).toNat * 2 ^ 31 + (125 + (exponentField v).toNat + p) * 2 ^ 23 +
        ((significandField v).toNat - 2 ^ p) * 2 ^ (23 - p) := by
  have he := exponentField_le v
  have hm := significandField_le v
  unfold toF32
  dsimp only
  split
  · simp [f32Pattern_toNat]
  · next hpos =>
    have hlen : bitlen (significandField v).toNat ≤ 4 := bitlen_le (by omega)
    obtain ⟨hlow, hhigh⟩ := leadingOne_bounds hpos
    obtain ⟨hfit, _⟩ := fraction_of_leadingOne (by omega) hlow hhigh
    rw [f32Pattern_toNat, BitVec.toNat_ofNat, BitVec.toNat_ofNat, Nat.mod_eq_of_lt hfit,
      Nat.mod_eq_of_lt (by omega), Nat.shiftLeft_eq]

/-! ### The decoded pattern (R75, R76) -/

theorem f32Sign_toNat_eq_patSign (f : Word) : (f32Sign f).toNat = patSign f := f32Sign_toNat f

theorem patSign_le (f : Word) : patSign f ≤ 1 := by
  rw [← f32Sign_toNat_eq_patSign]
  exact Nat.le_of_lt_succ (f32Sign f).isLt

theorem patSign_toF32 (v : Value) : patSign (toF32 v) = (signBit v).toNat := by
  rw [← f32Sign_toNat_eq_patSign, f32Sign_toF32]

theorem f32Decode_eq (f : Word) : f32Decode f = (patSig f, patExp f) := by
  have hexp : (f32Exp f).toNat = f.toNat / 2 ^ 23 % 256 := f32Exp_toNat f
  simp only [f32Decode, patSig, patExp, hexp, f32Frac_toNat]
  split <;> rfl

/-- X = 255 is decoded like any other exponent (R76). -/
theorem patExp_of_special {f : Word} (h : f.toNat / 2 ^ 23 % 256 = 255) : patExp f = 105 := by
  rw [patExp, h]
  rfl

/-- Only X = 255 gives the exponent 105 (R76). -/
theorem f32Decode_exponent_le {f : Word} (h : (f32Exp f).toNat ≠ 255) : (f32Decode f).2 ≤ 104 := by
  have := (f32Exp f).isLt
  unfold f32Decode
  split <;> dsimp only <;> omega

/-- The two rows of R75 are those of R76. -/
theorem f32Magnitude_eq_decode (f : Word) :
    f32Magnitude f = ((f32Decode f).1 : ℚ) * (2 : ℚ) ^ (f32Decode f).2 := by
  unfold f32Magnitude f32Decode
  split <;> rfl

theorem f32Magnitude_eq (f : Word) : f32Magnitude f = (patSig f : ℚ) * (2 : ℚ) ^ patExp f := by
  rw [f32Magnitude_eq_decode, f32Decode_eq]

theorem f32Magnitude_nonneg (f : Word) : 0 ≤ f32Magnitude f := by
  rw [f32Magnitude_eq]
  positivity

theorem f32Magnitude_eq_zero_iff {f : Word} : f32Magnitude f = 0 ↔ patSig f = 0 := by
  have hpow : (2 : ℚ) ^ patExp f ≠ 0 := zpow_ne_zero _ two_ne_zero
  rw [f32Magnitude_eq, mul_eq_zero_iff_right hpow, Nat.cast_eq_zero]

/-- An infinity or a NaN denotes no number (R75). -/
theorem exp_ne_of_f32Denotes {f : Word} {q : ℚ} (h : f32Denotes f = some q) : (f32Exp f).toNat ≠ 255 := by
  intro hspecial
  rw [f32Denotes, if_pos hspecial] at h
  cases h

theorem eq_of_f32Denotes {f : Word} {q : ℚ} (h : f32Denotes f = some q) :
    q = (-1) ^ patSign f * f32Magnitude f := by
  rw [f32Denotes_eq (exp_ne_of_f32Denotes h), f32Sign_toNat_eq_patSign] at h
  exact (Option.some.inj h).symm

theorem abs_of_f32Denotes {f : Word} {q : ℚ} (h : f32Denotes f = some q) : |q| = f32Magnitude f := by
  rw [eq_of_f32Denotes h, abs_mul, abs_neg_one_pow, one_mul, abs_of_nonneg (f32Magnitude_nonneg f)]

theorem formulaMagnitude_eq (v : Value) :
    formulaMagnitude v = (significandField v).toNat * (2 : ℚ) ^ (((exponentField v).toNat : ℤ) - 2) := rfl

/-- The magnitude of a Value is that of its number (10_state.md R14). -/
theorem abs_formulaValue (v : Value) : |formulaValue v| = formulaMagnitude v := by
  have hnonneg : 0 ≤ formulaMagnitude v := by
    rw [formulaMagnitude_eq]
    positivity
  rw [formulaValue_eq, abs_mul, abs_neg_one_pow, one_mul, abs_of_nonneg hnonneg]

/-! ### The odd form is unique (R77) -/

/-- Of all ways to write a number as an integer times a power of two, one with an odd integer has the greatest
power. -/
theorem exponent_le_of_odd {m : Nat} {z a b : ℤ} (hm : m % 2 = 1)
    (h : (m : ℚ) * (2 : ℚ) ^ a = z * (2 : ℚ) ^ b) : b ≤ a := by
  by_contra hlt
  obtain ⟨k, rfl⟩ : ∃ k : Nat, b = (k + 1 : Nat) + a := ⟨(b - a - 1).toNat, by omega⟩
  rw [zpow_add₀ two_ne_zero, zpow_natCast, ← mul_assoc] at h
  have hsig : (m : ℤ) = z * 2 ^ (k + 1) := by
    exact_mod_cast mul_right_cancel₀ (zpow_ne_zero a two_ne_zero) h
  rw [pow_succ, ← mul_assoc] at hsig
  omega

theorem odd_mul_zpow_inj {m n : Nat} {a b : ℤ} (hm : m % 2 = 1) (hn : n % 2 = 1)
    (h : (m : ℚ) * (2 : ℚ) ^ a = n * (2 : ℚ) ^ b) : m = n ∧ a = b := by
  have hexp : a = b := le_antisymm (exponent_le_of_odd (z := m) hn (by exact_mod_cast h.symm))
    (exponent_le_of_odd (z := n) hm (by exact_mod_cast h))
  rw [hexp] at h
  exact ⟨by exact_mod_cast mul_right_cancel₀ (zpow_ne_zero b two_ne_zero) h, hexp⟩

theorem f32Magnitude_of_oddForm {f : Word} {m : Nat} {eb : Int} (h : OddForm f m eb) :
    f32Magnitude f = (m : ℚ) * (2 : ℚ) ^ (eb - 2) := by
  obtain ⟨_, t, hsig, hexp⟩ := h
  have hpow : (2 : ℚ) ^ (eb - 2) = 2 ^ t * 2 ^ patExp f := by
    rw [← zpow_natCast, ← zpow_add₀ two_ne_zero, hexp]
    ring_nf
  rw [f32Magnitude_eq, hsig, hpow]
  push_cast
  ring

/-- The biased exponent counts in units of 0.25 (R80). -/
theorem four_mul_f32Magnitude {f : Word} {m : Nat} {eb : Int} (h : OddForm f m eb) :
    4 * f32Magnitude f = (m : ℚ) * (2 : ℚ) ^ eb := by
  rw [f32Magnitude_of_oddForm h, zpow_sub₀ two_ne_zero]
  ring

theorem patSig_ne_zero_of_oddForm {f : Word} {m : Nat} {eb : Int} (h : OddForm f m eb) : patSig f ≠ 0 := by
  obtain ⟨hodd, t, hsig, _⟩ := h
  have hm : m ≠ 0 := by omega
  rw [hsig]
  positivity

/-- The model's reduction finds the odd form (R77, R79). -/
theorem oddForm_f32Reduced {f : Word} (h : patSig f ≠ 0) : OddForm f (f32Reduced f).1 (f32Reduced f).2 := by
  obtain ⟨hodd, t, hsig, hexp⟩ := reduce_spec (patExp f) h
  rw [f32Reduced_significand, f32Reduced_exponent, f32Decode_eq]
  exact ⟨hodd, t, hsig, by rw [hexp]⟩

/-- An odd number of the pattern's magnitude is its odd form. -/
theorem oddForm_of_f32Magnitude {f : Word} {m : Nat} {eb : Int} (hodd : m % 2 = 1)
    (h : f32Magnitude f = (m : ℚ) * (2 : ℚ) ^ (eb - 2)) : OddForm f m eb := by
  have hm : m ≠ 0 := by omega
  have hpos : f32Magnitude f ≠ 0 := by
    rw [h]
    positivity
  have hform := oddForm_f32Reduced (mt f32Magnitude_eq_zero_iff.2 hpos)
  obtain ⟨hsig, hexp⟩ := odd_mul_zpow_inj hform.1 hodd ((f32Magnitude_of_oddForm hform).symm.trans h)
  have heb : (f32Reduced f).2 = eb := by omega
  rwa [hsig, heb] at hform

theorem f32Reduced_of_oddForm {f : Word} {m : Nat} {eb : Int} (h : OddForm f m eb) : f32Reduced f = (m, eb) := by
  have hform := oddForm_f32Reduced (patSig_ne_zero_of_oddForm h)
  obtain ⟨hsig, hexp⟩ := odd_mul_zpow_inj hform.1 h.1
    ((f32Magnitude_of_oddForm hform).symm.trans (f32Magnitude_of_oddForm h))
  exact Prod.ext hsig (by omega)

/-- The two kinds of pattern the conversions tell apart (R81). -/
theorem patSig_eq_zero_or_oddForm (f : Word) : patSig f = 0 ∨ ∃ m eb, OddForm f m eb :=
  or_iff_not_imp_left.2 fun h => ⟨_, _, oddForm_f32Reduced h⟩

/-- The decoded exponent of X = 255 is 105 already (R85). -/
theorem exists_oddForm_of_special {f : Word} (hspecial : f.toNat / 2 ^ 23 % 256 = 255) :
    ∃ m eb, OddForm f m eb ∧ 7 ≤ eb := by
  have hsig : patSig f ≠ 0 := by
    rw [patSig, if_neg (by omega)]
    omega
  have hform := oddForm_f32Reduced hsig
  obtain ⟨_, t, _, hexp⟩ := oddForm_f32Reduced hsig
  rw [patExp_of_special hspecial] at hexp
  exact ⟨_, _, hform, by omega⟩

/-! ### The conversions of each kind of pattern (R79, R81, R82) -/

theorem exactFromF32_of_zero {f : Word} (h : patSig f = 0) : exactFromF32 f = some (pack (patSign f) 0 0) := by
  rw [exactFromF32, f32Decode_eq, if_pos h, f32Sign_toNat_eq_patSign]

theorem approxFromF32_of_zero {f : Word} (h : patSig f = 0) : approxFromF32 f = pack (patSign f) 0 0 := by
  rw [approxFromF32, f32Decode_eq, if_pos h, f32Sign_toNat_eq_patSign]

/-- "The only test that yields Absent is `eb < 0`" (R79). -/
theorem exactFromF32_of_oddForm {f : Word} {m : Nat} {eb : Int} (h : OddForm f m eb) :
    exactFromF32 f = if eb < 0 then none else some (normalizePack (patSign f) eb.toNat m) := by
  rw [exactFromF32, f32Decode_eq, if_neg (patSig_ne_zero_of_oddForm h), f32Reduced_of_oddForm h,
    f32Sign_toNat_eq_patSign]

/-- The loop of R82 run as often as the exponent is below 0, which is never for an exponent that is not. -/
theorem raiseExponent_toNat_neg (m : Nat) (eb : Int) :
    raiseExponent (-eb).toNat m eb = (m / 2 ^ (-eb).toNat, max eb 0) := by
  rcases le_total 0 eb with h | h
  · have hpasses : (-eb).toNat = 0 := by omega
    rw [hpasses, raiseExponent, pow_zero, Nat.div_one, max_eq_left h]
  · obtain ⟨n, rfl⟩ : ∃ n : Nat, eb = -(n : Int) := ⟨(-eb).toNat, by omega⟩
    rw [neg_neg, Int.toNat_natCast, raiseExponent_eq, max_eq_right h]

/-- The odd significand less the bits the exponent lacks (R82), none where the exponent is not negative. -/
theorem approxFromF32_of_oddForm {f : Word} {m : Nat} {eb : Int} (h : OddForm f m eb) :
    approxFromF32 f = normalizePack (patSign f) eb.toNat (m / 2 ^ (-eb).toNat) := by
  have hexp : (max eb 0).toNat = eb.toNat := by omega
  rw [approxFromF32, f32Decode_eq, if_neg (patSig_ne_zero_of_oddForm h), f32Reduced_of_oddForm h]
  simp only [raiseExponent_toNat_neg, hexp, f32Sign_toNat_eq_patSign]

theorem exactFromF32_of_nonneg {f : Word} {m : Nat} {eb : Int} (h : OddForm f m eb) (heb : 0 ≤ eb) :
    exactFromF32 f = some (normalizePack (patSign f) eb.toNat m) := by
  rw [exactFromF32_of_oddForm h, if_neg (not_lt.2 heb)]

theorem exactFromF32_of_natCast {f : Word} {m e : Nat} (h : OddForm f m (e : Int)) :
    exactFromF32 f = some (normalizePack (patSign f) e m) := by
  rw [exactFromF32_of_nonneg h (Int.natCast_nonneg e), Int.toNat_natCast]

theorem exactFromF32_of_neg {f : Word} {m : Nat} {eb : Int} (h : OddForm f m eb) (heb : eb < 0) :
    exactFromF32 f = none := by
  rw [exactFromF32_of_oddForm h, if_pos heb]

/-- "For `eb ≥ 0` this function is identical to `exact_from_f32`" (R82). -/
theorem exactFromF32_eq_none_or (f : Word) :
    exactFromF32 f = none ∨ exactFromF32 f = some (approxFromF32 f) := by
  rcases patSig_eq_zero_or_oddForm f with hzero | ⟨m, eb, hform⟩
  · exact .inr (by rw [exactFromF32_of_zero hzero, approxFromF32_of_zero hzero])
  · rcases lt_or_ge eb 0 with hneg | hnonneg
    · exact .inl (exactFromF32_of_neg hform hneg)
    · have hpasses : (-eb).toNat = 0 := by omega
      exact .inr (by
        rw [exactFromF32_of_nonneg hform hnonneg, approxFromF32_of_oddForm hform, hpasses, pow_zero, Nat.div_one])

theorem approxFromF32_of_exact {f : Word} {v : Value} (h : exactFromF32 f = some v) : approxFromF32 f = v := by
  rcases exactFromF32_eq_none_or f with habsent | hvalue
  · rw [habsent] at h
    cases h
  · exact Option.some.inj (hvalue.symm.trans h)

theorem approxFromF32_of_nonneg {f : Word} {m : Nat} {eb : Int} (h : OddForm f m eb) (heb : 0 ≤ eb) :
    approxFromF32 f = normalizePack (patSign f) eb.toNat m :=
  approxFromF32_of_exact (exactFromF32_of_nonneg h heb)

/-- "the pair handed to the normalizer has exponent 0" (R82). -/
theorem approxFromF32_of_neg {f : Word} {m : Nat} {eb : Int} (h : OddForm f m eb) (heb : eb < 0) :
    approxFromF32 f = normalizePack (patSign f) 0 (m / 2 ^ (-eb).toNat) := by
  have hexp : eb.toNat = 0 := by omega
  rw [approxFromF32_of_oddForm h, hexp]

/-! ### The answers (R80, R83) -/

theorem exec_xfromf32_value {f : Word} {v : Value} (h : exactFromF32 f = some v) (s : State) :
    exec (.xfromf32 f) s = .next (answered s v.toNat) :=
  (exec_xfromf32_of_some h s).trans (congrArg Host.Outcome.next (finish_placeValue s v))

theorem exec_xfromf32_absent {f : Word} (h : exactFromF32 f = none) (s : State) :
    exec (.xfromf32 f) s = .next (raised s .absent) :=
  exec_xfromf32_of_none h s

theorem exec_afromf32 (f : Word) (s : State) :
    exec (.afromf32 f) s = .next (answered s (approxFromF32 f).toNat) :=
  congrArg Host.Outcome.next (finish_placeValue s _)

/-- Where the exact conversion has a result, both instructions answer it. -/
theorem exec_fromf32_value {f : Word} {v : Value} (h : exactFromF32 f = some v) (s : State) :
    exec (.xfromf32 f) s = .next (answered s v.toNat) ∧ exec (.afromf32 f) s = .next (answered s v.toNat) :=
  ⟨exec_xfromf32_value h s, by rw [exec_afromf32, approxFromF32_of_exact h]⟩

theorem pack_patSign_toNat (f : Word) : (pack (patSign f) 0 0).toNat = byte (patSign f) (0, 0) := by
  rw [pack_toNat_eq_byte, Nat.mod_eq_of_lt (Nat.lt_succ_of_le (patSign_le f))]

theorem normalizePack_patSign_toNat (f : Word) (e m : Nat) :
    (normalizePack (patSign f) e m).toNat = byte (patSign f) (normalForm e m) := by
  rw [normalizePack_toNat_eq_byte, Nat.mod_eq_of_lt (Nat.lt_succ_of_le (patSign_le f))]

theorem exec_fromf32_of_zero {f : Word} (h : patSig f = 0) (s : State) :
    exec (.xfromf32 f) s = .next (answered s (byte (patSign f) (0, 0))) ∧
      exec (.afromf32 f) s = .next (answered s (byte (patSign f) (0, 0))) := by
  rw [← pack_patSign_toNat]
  exact exec_fromf32_value (exactFromF32_of_zero h) s

theorem exec_fromf32_of_nonneg {f : Word} {m : Nat} {eb : Int} (h : OddForm f m eb) (heb : 0 ≤ eb) (s : State) :
    exec (.xfromf32 f) s = .next (answered s (byte (patSign f) (normalForm eb.toNat m))) ∧
      exec (.afromf32 f) s = .next (answered s (byte (patSign f) (normalForm eb.toNat m))) := by
  rw [← normalizePack_patSign_toNat]
  exact exec_fromf32_value (exactFromF32_of_nonneg h heb) s

theorem exec_afromf32_of_neg {f : Word} {m : Nat} {eb : Int} (h : OddForm f m eb) (heb : eb < 0) (s : State) :
    exec (.afromf32 f) s = .next (answered s (byte (patSign f) (normalForm 0 (m / 2 ^ (-eb).toNat)))) := by
  rw [exec_afromf32, approxFromF32_of_neg h heb, normalizePack_patSign_toNat]

/-! ### The numbers a conversion keeps or loses (R80, R82) -/

/-- Both zeros are on the grid of 0.25. -/
theorem multipleOfQuarter_of_zero {f : Word} (h : patSig f = 0) : MultipleOfQuarter f := by
  intro q hq
  refine ⟨0, ?_⟩
  rw [eq_of_f32Denotes hq, f32Magnitude_eq_zero_iff.2 h]
  simp

/-- A number that lacks no exponent is a whole number of quarters; an infinity or a NaN denotes none. -/
theorem multipleOfQuarter_of_nonneg {f : Word} {m : Nat} {eb : Int} (h : OddForm f m eb) (heb : 0 ≤ eb) :
    MultipleOfQuarter f := by
  intro q hq
  obtain ⟨n, rfl⟩ := Int.eq_ofNat_of_zero_le heb
  refine ⟨(-1) ^ patSign f * (m * 2 ^ n), ?_⟩
  have hquarters := four_mul_f32Magnitude h
  rw [zpow_natCast] at hquarters
  rw [eq_of_f32Denotes hq, mul_left_comm, hquarters]
  push_cast
  rfl

/-- The odd significand leaves no factor 2 to take the number back onto the grid. -/
theorem not_multipleOfQuarter_of_neg {f : Word} {m : Nat} {eb : Int} (h : OddForm f m eb) (heb : eb < 0) :
    ¬MultipleOfQuarter f := by
  intro hmultiple
  have hfinite : (f32Exp f).toNat ≠ 255 := by
    intro hspecial
    obtain ⟨_, t, _, hexp⟩ := h
    rw [patExp_of_special ((f32Exp_toNat f).symm.trans hspecial)] at hexp
    omega
  obtain ⟨z, hz⟩ := hmultiple _ (f32Denotes_eq hfinite)
  have hinteger : (m : ℚ) * (2 : ℚ) ^ eb = (((-1) ^ (f32Sign f).toNat * z : ℤ) : ℚ) * (2 : ℚ) ^ (0 : ℤ) := by
    push_cast
    rw [← four_mul_f32Magnitude h, ← hz, mul_left_comm 4, ← mul_assoc, ← mul_pow]
    simp
  exact absurd (exponent_le_of_odd h.1 hinteger) (not_le.2 heb)

/-- Below 0.25 every bit of the odd significand is shifted out (R82). -/
theorem shifted_eq_zero_of_small {f : Word} {m : Nat} {eb : Int} (h : OddForm f m eb)
    (hsmall : f32Magnitude f < 1 / 4) : eb < 0 ∧ m / 2 ^ (-eb).toNat = 0 := by
  have hpos : 1 ≤ m := by have := h.1; omega
  have hquarters : (m : ℚ) * (2 : ℚ) ^ eb < 1 := by
    rw [← four_mul_f32Magnitude h]
    linarith
  have hneg : eb < 0 := by
    by_contra hnonneg
    have hpow : (1 : ℚ) ≤ (2 : ℚ) ^ eb := one_le_zpow₀ one_le_two (not_lt.1 hnonneg)
    have hm : (1 : ℚ) ≤ m := by exact_mod_cast hpos
    exact absurd hquarters (not_lt.2 (one_le_mul_of_one_le_of_one_le hm hpow))
  obtain ⟨n, rfl⟩ : ∃ n : Nat, eb = -(n : Int) := ⟨(-eb).toNat, by omega⟩
  refine ⟨hneg, ?_⟩
  rw [zpow_neg, zpow_natCast, ← div_eq_mul_inv, div_lt_one (by positivity)] at hquarters
  rw [neg_neg, Int.toNat_natCast]
  exact Nat.div_eq_of_lt (by exact_mod_cast hquarters)

/-! ### Canonical bytes and the round trip (R84) -/

theorem canonical_iff {v : Value} :
    canonical v = true ↔ ((exponentField v).toNat = 0 ∧ (significandField v).toNat = 0) ∨
      ((significandField v).toNat % 2 = 1 ∧ (exponentField v).toNat ≤ 6) := by
  have hzero : sgnIsZero v = true ↔ (exponentField v).toNat = 0 ∧ (significandField v).toNat = 0 := by
    rw [sgnIsZero_iff, exponentField_toNat, significandField_toNat]
    omega
  simp only [canonical, Bool.or_eq_true, Bool.and_eq_true, decide_eq_true_eq, hzero]

theorem patSig_eq_zero_of_formulaMagnitude {f : Word} {v : Value} (h : f32Magnitude f = formulaMagnitude v)
    (hsig : (significandField v).toNat = 0) : patSig f = 0 := by
  rw [← f32Magnitude_eq_zero_iff, h, formulaMagnitude_eq, hsig, Nat.cast_zero, zero_mul]

/-- A pattern of a canonical byte's magnitude converts to that byte's own exponent and significand (R79, the table's
first and third rows). -/
theorem exactFromF32_of_canonical {f : Word} {u : Value} (hu : canonical u = true)
    (h : f32Magnitude f = formulaMagnitude u) :
    exactFromF32 f =
      some (normalizePack (patSign f) (exponentField u).toNat (significandField u).toNat) := by
  rcases canonical_iff.1 hu with ⟨hexp, hsig⟩ | ⟨hodd, _⟩
  · rw [exactFromF32_of_zero (patSig_eq_zero_of_formulaMagnitude h hsig), hexp, hsig]
    rfl
  · exact exactFromF32_of_natCast (oddForm_of_f32Magnitude hodd (h.trans (formulaMagnitude_eq u)))

/-- What every byte comes back as: the zero of its sign, or its odd form normalized. -/
theorem exactFromF32_toF32 (v : Value) :
    ((significandField v).toNat = 0 ∧ exactFromF32 (toF32 v) = some (pack (signBit v).toNat 0 0)) ∨
      ∃ m t : Nat, m % 2 = 1 ∧ (significandField v).toNat = m * 2 ^ t ∧
        exactFromF32 (toF32 v) =
          some (normalizePack (signBit v).toNat ((exponentField v).toNat + t) m) := by
  have hmagnitude := (toF32_magnitude v).2
  rw [← patSign_toF32]
  rcases Nat.eq_zero_or_pos (significandField v).toNat with hzero | hpos
  · exact .inl ⟨hzero, exactFromF32_of_zero (patSig_eq_zero_of_formulaMagnitude hmagnitude hzero)⟩
  · obtain ⟨hodd, t, hsig, _⟩ := reduce_spec 0 hpos.ne'
    refine .inr ⟨_, t, hodd, hsig, ?_⟩
    have hform : OddForm (toF32 v) (reduce (significandField v).toNat 0).1
        (((exponentField v).toNat + t : Nat) : Int) := by
      refine oddForm_of_f32Magnitude hodd ?_
      rw [hmagnitude, formulaMagnitude_eq, Nat.cast_add, add_sub_right_comm, zpow_add₀ two_ne_zero, zpow_natCast]
      conv_lhs => rw [hsig]
      push_cast
      ring
    exact exactFromF32_of_natCast hform

theorem exactFromF32_toF32_eq_approx (v : Value) :
    exactFromF32 (toF32 v) = some (approxFromF32 (toF32 v)) := by
  refine (exactFromF32_eq_none_or _).resolve_left fun habsent => ?_
  rcases exactFromF32_toF32 v with ⟨_, hv⟩ | ⟨_, _, _, _, hv⟩ <;> rw [habsent] at hv <;> cases hv

/-- An odd significand of four bits is packed as it is, or saturated. -/
theorem canonical_normalizePack {s m : Nat} (e : Nat) (hs : s ≤ 1) (hodd : m % 2 = 1) (hm : m ≤ 15) :
    canonical (normalizePack s e m) = true ∨ (significandField (normalizePack s e m)).toNat = 0 := by
  rcases Nat.lt_or_ge e 7 with he | he
  · have hn := normalizePack_toNat_of_fits hs (Nat.le_of_lt_succ he) hm
    refine .inl (canonical_iff.2 (.inr ?_))
    rw [significandField_toNat, exponentField_toNat, hn]
    omega
  · right
    rw [significandField_toNat, normalizePack_toNat, normalizePair_of_seven_le m he]
    omega

theorem exactFromF32_toF32_eq_some_iff (v : Value) :
    exactFromF32 (toF32 v) = some v ↔ canonical v = true := by
  constructor
  · intro h
    rcases exactFromF32_toF32 v with ⟨hzero, hv⟩ | ⟨m, t, hodd, hsig, hv⟩
    · have hpack : pack (signBit v).toNat 0 0 = v := Option.some.inj (hv.symm.trans h)
      refine canonical_iff.2 (.inl ⟨?_, hzero⟩)
      rw [← hpack, exponentField_toNat, pack_toNat]
      omega
    · have hpack := Option.some.inj (hv.symm.trans h)
      have hpos : 0 < 2 ^ t := by positivity
      have hle : m ≤ (significandField v).toNat := hsig ▸ Nat.le_mul_of_pos_right m hpos
      have hcases := canonical_normalizePack ((exponentField v).toNat + t) (signBit_toNat_le v) hodd
        (hle.trans (significandField_le v))
      rw [hpack] at hcases
      exact hcases.resolve_right (by omega)
  · intro hcanonical
    rw [exactFromF32_of_canonical hcanonical (toF32_magnitude v).2, patSign_toF32, Option.some.injEq,
      normalizePack_fields_eq_iff]
    rcases canonical_iff.1 hcanonical with ⟨hexp, _⟩ | ⟨_, hexp⟩ <;> omega

/-! ### The count of canonical bytes (R84) -/

theorem length_canonical_nonNegative :
    ((List.range 128).filter fun n => canonical (BitVec.ofNat 8 n)).length = 57 := by decide

theorem length_canonical_negative :
    ((List.range 128).filter fun n => canonical (BitVec.ofNat 8 (128 + n))).length = 57 := by decide

theorem length_canonical : ((List.range 256).filter fun n => canonical (BitVec.ofNat 8 n)).length = 114 := by
  have hhalves : List.range 256 = List.range 128 ++ (List.range 128).map (128 + ·) :=
    List.range_add (n := 128) (m := 128)
  rw [hhalves, List.filter_append, List.length_append, List.filter_map, List.length_map]
  exact congrArg₂ (· + ·) length_canonical_nonNegative length_canonical_negative

end Sys2Proof.Machine

namespace Sys2Proof.Proofs

open Sys2Proof.Machine Sys2Proof.Claims

/-- Settles O39: the three fields of the pattern at their places, none of them truncated. -/
theorem tof32AnswersThePattern : Obligations.Tof32AnswersThePattern := by
  choose _ _ _ _ _ _ _ _ _ _ _ _ _ _ _ hrow _ using operationCodesSelectRowsAndOperands
  refine unaryAnswers_of_row hrow exec_tof32 fun v => ?_
  rw [toF32_toNat, sgnOf_toNat, expOf_toNat, sigOf_toNat]

/-- Settles O41: `decode` takes the pattern apart by the two rows that say what it denotes. -/
theorem decodeDenotesItsPattern : Obligations.DecodeDenotesItsPattern := by
  intro f hfinite
  refine ⟨f32Decode_significand_lt f, (f32Decode_exponent_mem f).1, f32Decode_exponent_le hfinite, ?_⟩
  rw [f32Denotes_eq hfinite, f32Magnitude_eq_decode, mul_assoc]

/-- Settles O42, by induction on the passes of the reducing loop. -/
theorem reductionStripsTrailingZeros : Obligations.ReductionStripsTrailingZeros :=
  fun _ e hm => reduce_spec e (Nat.ne_of_gt hm)

/-- Settles O43: the reduction finds the odd form, which is the only one, and the sign of its exponent decides. -/
theorem exactConversionAnswers : Obligations.ExactConversionAnswers := by
  choose _ _ _ _ _ _ _ _ _ _ _ _ _ _ _ _ hrow _ using operationCodesSelectRowsAndOperands
  exact ⟨fun f s hzero => (exec_fromf32_of_zero hzero s).1,
    fun f s m eb hform heb => (exec_fromf32_of_nonneg hform heb s).1,
    fun f s m eb hform heb => exec_xfromf32_absent (exactFromF32_of_neg hform heb) s, hrow⟩

/-- Settles O44: the number is on the grid exactly where its biased exponent is not negative. -/
theorem absentExactlyOffTheQuarterGrid : Obligations.AbsentExactlyOffTheQuarterGrid := by
  intro f s
  rcases patSig_eq_zero_or_oddForm f with hzero | ⟨m, eb, hform⟩
  · exact ⟨fun _ => ⟨_, exec_xfromf32_value (exactFromF32_of_zero hzero) s⟩,
      fun hoff => absurd (multipleOfQuarter_of_zero hzero) hoff⟩
  · rcases lt_or_ge eb 0 with hneg | hnonneg
    · exact ⟨fun hon => absurd hon (not_multipleOfQuarter_of_neg hform hneg),
        fun _ => exec_xfromf32_absent (exactFromF32_of_neg hform hneg) s⟩
    · exact ⟨fun _ => ⟨_, exec_xfromf32_value (exactFromF32_of_nonneg hform hnonneg) s⟩,
        fun hoff => absurd (multipleOfQuarter_of_nonneg hform hnonneg) hoff⟩

/-- Settles O45: status OK for a Value, and a status that has no result for none. -/
theorem exactConversionMeansItsOption : Obligations.ExactConversionMeansItsOption := by
  intro f s
  cases h : exactFromF32 f with
  | some v => exact ⟨_, exec_xfromf32_value h s, rfl⟩
  | none => exact ⟨_, exec_xfromf32_absent h s, rfl⟩

/-- Settles O46: as O43, with the loop of R82 in closed form where the exponent is negative. -/
theorem approxConversionAnswers : Obligations.ApproxConversionAnswers := by
  choose _ _ _ _ _ _ _ _ _ _ _ _ _ _ _ _ _ hrow using operationCodesSelectRowsAndOperands
  exact ⟨fun f s hzero => (exec_fromf32_of_zero hzero s).2,
    fun f s m eb hform heb => (exec_fromf32_of_nonneg hform heb s).2,
    fun f s m eb hform heb => exec_afromf32_of_neg hform heb s, hrow⟩

/-- Settles O47: a status OK means that the exact conversion has a result, and the other function gives it too. -/
theorem approxExtendsExact : Obligations.ApproxExtendsExact := by
  intro f s t y hexec hout
  cases h : exactFromF32 f with
  | some v =>
    obtain ⟨hx, ha⟩ := exec_fromf32_value h s
    exact ha.trans (hx.symm.trans hexec)
  | none =>
    obtain rfl : raised s .absent = t := Host.Outcome.next.inj ((exec_xfromf32_absent h s).symm.trans hexec)
    simp [raised] at hout

/-- Settles O48: the shift leaves nothing of the significand, and the normalizer nothing to do. -/
theorem approxOfSmallIsSignedZero : Obligations.ApproxOfSmallIsSignedZero := by
  intro f s q hdenotes hsmall
  rw [abs_of_f32Denotes hdenotes] at hsmall
  rcases patSig_eq_zero_or_oddForm f with hzero | ⟨m, eb, hform⟩
  · exact (exec_fromf32_of_zero hzero s).2
  · obtain ⟨hneg, hshifted⟩ := shifted_eq_zero_of_small hform hsmall
    rw [exec_afromf32_of_neg hform hneg, hshifted]
    rfl

/-- Settles O49: the exponent of X = 255 fails the normalizer's first test. -/
theorem specialInputsSaturate : Obligations.SpecialInputsSaturate := by
  intro f s hspecial
  obtain ⟨m, eb, hform, heb⟩ := exists_oddForm_of_special hspecial
  have hexec := exec_fromf32_of_nonneg hform (by omega) s
  rwa [normalForm_of_seven_le m (by omega)] at hexec

/-- Settles O50: the byte's own exponent and significand come back, with the sign of the pattern. -/
theorem conversionOfCanonicalIsExact : Obligations.ConversionOfCanonicalIsExact := by
  intro f u s hu hdenotes
  have hmagnitude : f32Magnitude f = formulaMagnitude u := by
    rw [← abs_of_f32Denotes hdenotes, abs_formulaValue]
  have hexp : (exponentField u).toNat ≤ 6 := by
    rcases canonical_iff.1 hu with ⟨hexp, _⟩ | ⟨_, hexp⟩ <;> omega
  have hsig := significandField_le u
  obtain ⟨hx, ha⟩ := exec_fromf32_value (exactFromF32_of_canonical hu hmagnitude) s
  refine ⟨_, hx, ha, ?_, ?_⟩
  · rw [formulaValue_normalizePack (patSign_le f) hexp hsig, eq_of_f32Denotes hdenotes, hmagnitude]
    rfl
  · rw [sgnOf, normalizePack_toNat_of_fits (patSign_le f) hexp hsig]
    omega

/-- Settles O51: the exact round trip always has the approximate one's result. -/
theorem roundTripExactlyOnCanonical : Obligations.RoundTripExactlyOnCanonical := by
  refine ⟨fun v => ?_, length_canonical⟩
  have hfixed := exactFromF32_toF32_eq_some_iff v
  have hvalue := exactFromF32_toF32_eq_approx v
  refine ⟨hfixed, ?_, by simp [hvalue]⟩
  rw [← hfixed, hvalue, Option.some.injEq]

end Sys2Proof.Proofs

/-! The status rules (60_exceptions.md): which codes can only answer OK (R94), from what R90 to R93 allow each
code. -/

namespace Sys2Proof.Machine

open Sys2Proof.Safety

/-- Each status but OK needs a code of its own (R91 to R93), so elsewhere OK is the only one left. -/
theorem st_eq_ok_of_answerAllowed {op : OpCode} {x : Answer} (h : AnswerAllowed op x) (hop : op.toNat < 18)
    (hexact : op.toNat ≠ 16) : x.st = .ok := by
  obtain ⟨_, _, hillegal, habsent, hfatal⟩ := h
  cases hst : x.st with
  | ok => rfl
  | absent => exact absurd (habsent hst) hexact
  | illegal => exact absurd (hillegal.1 hst) (by omega)
  | fatal => exact absurd hst hfatal

end Sys2Proof.Machine

namespace Sys2Proof.Proofs

open Sys2Proof.Machine

/-- Settles O10: a step always settles to an answer its code allows, and these codes allow only OK. -/
theorem onlyExactConversionAndReservedCodesAreNotOk :
    Obligations.OnlyExactConversionAndReservedCodesAreNotOk := by
  intro s hop hexact
  obtain ⟨x, hstep⟩ := exec_answers (decode s.request)
  have hok := st_eq_ok_of_answerAllowed (step_answerAllowed (hstep s) rfl) hop hexact
  exact ⟨x.y, hok ▸ hstep s⟩

end Sys2Proof.Proofs

/-! The reset rules (70_reset_and_hazards.md): what code 0 settles to (R106), and that a settled state, the reset state
among them, holds an answer its code allows. -/

namespace Sys2Proof.Machine

open Sys2Proof.Safety

/-- A settled state is the next state of its own step (R105), so its outputs hold what a step can leave there. -/
theorem answerFits_of_settled {s : State} (h : Settled s) : AnswerFits s :=
  fun _ hout => step_answerAllowed h hout

end Sys2Proof.Machine

namespace Sys2Proof.Proofs

open Sys2Proof.Machine Sys2Proof.Safety

/-- Settles O17: code 0 selects ZERO, whose answer O16 gives (R48), and no operand is read. -/
theorem codeZeroSettlesToZero : Obligations.CodeZeroSettlesToZero := by
  intro s hop
  obtain ⟨_, hzero, _⟩ := constantsAnswer
  have hcode : s.op.toNat = 0 := congrArg BitVec.toNat hop
  exact hzero s hcode

/-- Settles O8: the reset state holds `op = 0` and O17's answer to it, so it is settled, and its answer fits. -/
theorem resetAnswerFitsAndIsSettled : Obligations.ResetAnswerFitsAndIsSettled := by
  have hsettled : Settled State.reset := codeZeroSettlesToZero State.reset rfl
  exact ⟨answerFits_of_settled hsettled, hsettled⟩

end Sys2Proof.Proofs
